-- ==== Sys2Proof/Word.lean ====
section
/-!
DEFINITION. The word types of QRB: the bytes, the 32-bit registers and the 24-bit bus offsets of
spec/00_scope.md R6 and spec/20_memory.md R60.
-/

namespace Sys2Proof

/-- A byte: a memory cell, a field element of GF(256), an operand of a command (R6, R92, R121). -/
abbrev Byte := BitVec 8

/-- A register, a command word, the data of a bus access (R6, R90). -/
abbrev Word := BitVec 32

/-- A byte offset from the base of QRB's window: 2^24 of them (R60). -/
abbrev Offset := BitVec 24

end Sys2Proof
end

