-- ==== Sys2Proof/Syntax.lean ====
section
/-!
DEFINITION. The ten commands of QRB, one constructor per row of spec/opcode_table.json (spec/30_encoding.md R93).
-/

namespace Sys2Proof

/-- A command of QRB (R93). `a` and `b` are the operand bytes of the command word, `a` first (R92, R97). -/
inductive Instr where
  /-- NOP, format Z, op 0x00 (spec/40_control.md R113). -/
  | nop
  /-- GFADD a, b, format B, op 0x01 (spec/41_gf256.md R128). -/
  | gfadd (a b : Byte)
  /-- GFMUL a, b, format B, op 0x02 (R129). -/
  | gfmul (a b : Byte)
  /-- GFDIV a, b, format B, op 0x03: dividend `a`, divisor `b` (R130). -/
  | gfdiv (a b : Byte)
  /-- GFINV a, format U, op 0x04 (R131). -/
  | gfinv (a : Byte)
  /-- GFEXP a, format U, op 0x05: `a` is an exponent (R132). -/
  | gfexp (a : Byte)
  /-- GFLOG a, format U, op 0x06 (R133). -/
  | gflog (a : Byte)
  /-- RSSYN, format Z, op 0x10 (spec/43_reed_solomon.md R163). -/
  | rssyn
  /-- RSDEC, format Z, op 0x11 (R164). -/
  | rsdec
  /-- BINARIZE, format Z, op 0x20 (spec/44_binarizer.md R190). -/
  | binarize
deriving DecidableEq, Repr

end Sys2Proof
end

