-- ==== Sys2Proof/WellFormed.lean ====
section
/-!
DEFINITION. Which operand fields a command word of each format may use (spec/30_encoding.md R90, R91), as checks on
the three operand bytes of a word, and the well-formedness of an instruction as those checks on the bytes it stands for.
-/

namespace Sys2Proof

/-- The three command formats (R91). -/
inductive Format where
  /-- No operand: `a`, `b` and `z` must be 0. -/
  | z
  /-- One operand, `a`: `b` and `z` must be 0. -/
  | u
  /-- Two operands, `a` and `b`: `z` must be 0. -/
  | b
deriving DecidableEq, Repr

/-- The three bytes of a command word above its opcode (R90): `a` is bits 15:8, `b` bits 23:16, `z` bits 31:24. -/
structure OperandFields where
  a : Byte
  b : Byte
  z : Byte
deriving DecidableEq, Repr

/-- Bits 31:24 are zero, in every format (R90). -/
def OperandFields.reservedClear (f : OperandFields) : Bool := f.z == 0

/-- Field `a` is zero in the format that does not use it (R91). -/
def OperandFields.aFits (f : OperandFields) : Format → Bool
  | .z => f.a == 0
  | .u => true
  | .b => true

/-- Field `b` is zero in the formats that do not use it (R91). -/
def OperandFields.bFits (f : OperandFields) : Format → Bool
  | .z => f.b == 0
  | .u => f.b == 0
  | .b => true

/-- All that a format asks of the operand bytes (R91). -/
def OperandFields.fits (f : OperandFields) (fmt : Format) : Bool :=
  f.reservedClear && f.aFits fmt && f.bFits fmt

/-- The format of each command (R93). -/
def Instr.format : Instr → Format
  | .nop => .z
  | .gfadd _ _ => .b
  | .gfmul _ _ => .b
  | .gfdiv _ _ => .b
  | .gfinv _ => .u
  | .gfexp _ => .u
  | .gflog _ => .u
  | .rssyn => .z
  | .rsdec => .z
  | .binarize => .z

/-- The operand bytes a command is written with (R97). -/
def Instr.operandFields : Instr → OperandFields
  | .nop => ⟨0, 0, 0⟩
  | .gfadd a b => ⟨a, b, 0⟩
  | .gfmul a b => ⟨a, b, 0⟩
  | .gfdiv a b => ⟨a, b, 0⟩
  | .gfinv a => ⟨a, 0, 0⟩
  | .gfexp a => ⟨a, 0, 0⟩
  | .gflog a => ⟨a, 0, 0⟩
  | .rssyn => ⟨0, 0, 0⟩
  | .rsdec => ⟨0, 0, 0⟩
  | .binarize => ⟨0, 0, 0⟩

/-- An instruction is well formed when its operand bytes fit its format. Operands are typed as bytes, so
every instruction is (R92: no other bound on an operand). -/
def Instr.wellFormed (i : Instr) : Bool := i.operandFields.fits i.format

end Sys2Proof
end

