-- ==== Sys2Proof/Decode.lean ====
section
/-!
DEFINITION. The decoder of the 32-bit command word, total and rejecting by name, and after it the encoder, both from the
table of spec/30_encoding.md R93. The table itself is `opcodeTable`, row by row as spec/opcode_table.json has it.
-/

namespace Sys2Proof

/-- Bits 7:0 of a command word (R90). -/
def opField (w : Word) : Byte := w.extractLsb' 0 8

/-- Bits 15:8 of a command word (R90). -/
def aField (w : Word) : Byte := w.extractLsb' 8 8

/-- Bits 23:16 of a command word (R90). -/
def bField (w : Word) : Byte := w.extractLsb' 16 8

/-- Bits 31:24 of a command word (R90). -/
def zField (w : Word) : Byte := w.extractLsb' 24 8

/-- The operand bytes of a command word (R90, R92). -/
def operandFieldsOf (w : Word) : OperandFields := ⟨aField w, bField w, zField w⟩

/-- Why a word is no command (R94). Each ends, at the engine, in the same IllegalCommand. -/
inductive DecodeError where
  /-- The opcode is none of the ten (R94, R95). -/
  | unknownOpcode (op : Byte)
  /-- Bits 31:24 are not zero (R90, R94). -/
  | reservedBitsSet (z : Byte)
  /-- An operand field that the format does not use is not zero (R91, R94). -/
  | unusedOperandSet (fmt : Format)
deriving DecidableEq, Repr

/-- What the decoder answers. -/
abbrev DecodeResult := Except DecodeError Instr

/-- The instruction `i` of format `fmt`, if the word's operand bytes fit the format (R91, R94). -/
def decodeAs (fmt : Format) (i : Instr) (f : OperandFields) : DecodeResult :=
  if !f.reservedClear then .error (.reservedBitsSet f.z)
  else if f.fits fmt then .ok i
  else .error (.unusedOperandSet fmt)

/-- The decoder (R93): the opcode selects the row, the row's format says which fields must be zero. -/
def decode (w : Word) : DecodeResult :=
  let f := operandFieldsOf w
  match (opField w).toNat with
  | 0x00 => decodeAs .z .nop f
  | 0x01 => decodeAs .b (.gfadd f.a f.b) f
  | 0x02 => decodeAs .b (.gfmul f.a f.b) f
  | 0x03 => decodeAs .b (.gfdiv f.a f.b) f
  | 0x04 => decodeAs .u (.gfinv f.a) f
  | 0x05 => decodeAs .u (.gfexp f.a) f
  | 0x06 => decodeAs .u (.gflog f.a) f
  | 0x10 => decodeAs .z .rssyn f
  | 0x11 => decodeAs .z .rsdec f
  | 0x20 => decodeAs .z .binarize f
  | _ => .error (.unknownOpcode (opField w))

/-- The opcode of each command (R93). -/
def Instr.opcode : Instr → Byte
  | .nop => 0x00
  | .gfadd _ _ => 0x01
  | .gfmul _ _ => 0x02
  | .gfdiv _ _ => 0x03
  | .gfinv _ => 0x04
  | .gfexp _ => 0x05
  | .gflog _ => 0x06
  | .rssyn => 0x10
  | .rsdec => 0x11
  | .binarize => 0x20

/-- The encoder (R97): the command word of an instruction, `z`, `b`, `a`, `op` from the top. -/
def encode (i : Instr) : Word :=
  i.operandFields.z ++ i.operandFields.b ++ i.operandFields.a ++ i.opcode

/-- One row of the opcode table: a word `w` selects it iff `(w and mask) = pattern` (R93). -/
structure OpcodeRow where
  mnemonic : String
  pattern : Word
  mask : Word
deriving DecidableEq, Repr

/-- The word selects the row (R93). -/
def OpcodeRow.selectedBy (r : OpcodeRow) (w : Word) : Bool := w &&& r.mask == r.pattern

/-- The ten rows of R93. -/
def opcodeTable : List OpcodeRow :=
  [⟨"NOP", 0x00000000, 0xFFFFFFFF⟩,
   ⟨"GFADD", 0x00000001, 0xFF0000FF⟩,
   ⟨"GFMUL", 0x00000002, 0xFF0000FF⟩,
   ⟨"GFDIV", 0x00000003, 0xFF0000FF⟩,
   ⟨"GFINV", 0x00000004, 0xFFFF00FF⟩,
   ⟨"GFEXP", 0x00000005, 0xFFFF00FF⟩,
   ⟨"GFLOG", 0x00000006, 0xFFFF00FF⟩,
   ⟨"RSSYN", 0x00000010, 0xFFFFFFFF⟩,
   ⟨"RSDEC", 0x00000011, 0xFFFFFFFF⟩,
   ⟨"BINARIZE", 0x00000020, 0xFFFFFFFF⟩]

/-- The mnemonic of an instruction, as the table has it (R93). -/
def Instr.mnemonic : Instr → String
  | .nop => "NOP"
  | .gfadd _ _ => "GFADD"
  | .gfmul _ _ => "GFMUL"
  | .gfdiv _ _ => "GFDIV"
  | .gfinv _ => "GFINV"
  | .gfexp _ => "GFEXP"
  | .gflog _ => "GFLOG"
  | .rssyn => "RSSYN"
  | .rsdec => "RSDEC"
  | .binarize => "BINARIZE"

/-- What the decoder reads from a row's bits: one 32-bit word, bit 0 its least significant bit, every bit from `nbits`
up zero; there are no shorter or longer commands (R90, R96). -/
def decodeTableWord (nbits w : Nat) : Option Instr :=
  if 32 < nbits then none
  else
    match decode (BitVec.ofNat 32 (w % 2 ^ nbits)) with
    | .ok i => some i
    | .error _ => none

end Sys2Proof
end

