-- ==== Sys2Proof/Config.lean ====
section
/-!
DEFINITION. The parameters of QRB (spec/00_scope.md R5) and the model's free values: constants with no body, of which
nothing can be proved, for what the spec leaves unspecified.
-/

namespace Sys2Proof.Config

/-- The value of the ID register (spec/10_state.md R23). -/
def idValue : Word := 0x51524231

/-- `P_MAX_N`: the longest block, in codewords (R5, spec/43_reed_solomon.md R160). -/
def maxBlockLength : Nat := 255

/-- `P_MIN_RANGE`: the least dynamic range of a high-contrast block (R5, spec/44_binarizer.md R196). -/
def minRange : Nat := 12

/-- `P_MIN_BLOCK`: the least block size and the least image side, in pixels (R5, spec/44_binarizer.md R191, R192). -/
def minBlock : Nat := 16

/-- `P_BLOCKS_TARGET`: the blocks aimed at along the shorter side (R5, spec/44_binarizer.md R192). -/
def blocksTarget : Nat := 40

/-- `P_MAX_PIXELS`: the capacity of LUMA and BIN in pixels, 2^22 (R5, spec/20_memory.md R60; log entry 16). -/
def maxPixels : Nat := 4194304

/-- FREE VALUE. The byte at place `i` of the free contents number `d`: what a memory cell nothing has written holds
after power-on (U1) or after an interrupted command (U3), and what a memory read while BUSY = 1 returns (U2)
(spec/93_implementation_defined.md; log entries 4, 6, 7). -/
opaque freeByte (d i : Nat) : Byte

/-- FREE VALUE. `LOG[0]`, which does not exist (spec/41_gf256.md R124; log entry 14). No command reaches it. -/
opaque logOfZero : Nat

/-- FREE VALUE. `gf_inv(0)`, which is undefined (spec/41_gf256.md R127; log entry 14). No command reaches it. -/
opaque inverseOfZero : Byte

/-- FREE VALUE. `gf_div(a, 0)`, which is undefined (spec/41_gf256.md R126; log entry 14). No command reaches it. -/
opaque quotientByZero (a : Byte) : Byte

end Sys2Proof.Config
end

