-- ==== Sys2Proof/Machine/State.lean ====
section
/-!
DEFINITION. The state of QRB (spec/10_state.md R20): the fields of its twelve registers, its four memories, the latch of
the running command, and, as the model's own fields, the pending inputs and the last bus reply. Also the reasons a step
could stop (there are none that a step gives) and the state after reset (R42).
-/

namespace Sys2Proof.Machine

/-- The four memories (spec/10_state.md R36 to R39). -/
inductive Bank where
  | cw
  | syn
  | luma
  | bin
deriving DecidableEq, Repr

/-- The size of a host access in bytes, 1, 2 or 4 (spec/20_memory.md R65). -/
inductive Width where
  | w8
  | w16
  | w32
deriving DecidableEq, Repr

/-- One thing that happens to QRB (spec/00_scope.md R9). The order of events is the environment's (log entry 1). -/
inductive Event where
  /-- The engine has its turn: if a command is running, it completes (spec/70_reset_and_hazards.md R260). -/
  | engine
  /-- The host reads (`MemRead`, spec/20_memory.md R70). -/
  | read (off : Offset) (w : Width)
  /-- The host writes the low bytes of `v` (`MemWrite`, R70). -/
  | write (off : Offset) (w : Width) (v : Word)
  /-- `rst_n` is asserted and released, power kept (spec/70_reset_and_hazards.md R250, R252; log entry 13). -/
  | reset
  /-- Power is lost and comes back, which is a reset too (R250, R253; log entry 13). -/
  | powerOn
deriving DecidableEq, Repr

/-- QRB's answer to a host access (spec/20_memory.md R70; log entry 3). -/
inductive BusReply where
  /-- There was no access yet. -/
  | none
  /-- A read was performed; a narrow read's value is in the low bits. -/
  | data (v : Word)
  /-- A write was accepted on the bus (whether it was performed, ignored or dropped). -/
  | accepted
  /-- The access got a bus error response (R65 to R67). -/
  | busError
deriving DecidableEq, Repr

/-- What a command completes with: success, or one of the errors QRB can raise (spec/60_exceptions.md R221). -/
inductive ErrorCode where
  | success
  | binarizationFailed
  | uncorrectableBlock
  | illegalCommand
  | badConfig
  | gfDomain
deriving DecidableEq, Repr

/-- A memory: the cells written since its contents last became unspecified, by index, and the number of the free
contents that all other cells hold (log entries 4 to 6). -/
structure Memory where
  epoch : Nat
  cells : List Host.Cell
deriving DecidableEq, Repr

/-- The state of QRB (R20). Register fields stand for the named bits of their registers; reserved bits have no
storage (R44; log entry 9). `ID` is a constant (R23) and `irq` has no state (R41). -/
structure State where
  /-- CTRL.IE (R24). -/
  ie : Bool
  /-- STATUS.BUSY (R25). -/
  busy : Bool
  /-- STATUS.DONE (R25). -/
  done : Bool
  /-- STATUS.PERR (R25). -/
  perr : Bool
  /-- STATUS.ERR (R25, R221; log entry 21). -/
  err : ErrorCode
  /-- The model's own: STATUS.ERR as it was before the last accepted command, which is what a read gives while BUSY = 1
  (spec/70_reset_and_hazards.md R256; log entry 23). -/
  errBefore : ErrorCode
  /-- CMDL, the last accepted command word, read through CMD (R26, R40). -/
  cmdl : Word
  /-- RESULT.VAL (R27). -/
  result : Byte
  /-- RS_LEN.N (R28). -/
  rsN : Byte
  /-- RS_NDATA.K (R29). -/
  rsK : Byte
  /-- RS_STAT.NERR (R30). -/
  nerr : Byte
  /-- RS_STAT.SYNZ (R30). -/
  synz : Bool
  /-- IMG_W.W (R31). -/
  imgW : BitVec 13
  /-- IMG_H.H (R32). -/
  imgH : BitVec 13
  /-- BIN_BLKSZ.S (R33). -/
  blkSz : BitVec 13
  /-- BIN_GRID.NBX (R34). -/
  gridX : BitVec 16
  /-- BIN_GRID.NBY (R34). -/
  gridY : BitVec 16
  /-- The codeword memory (R36). -/
  cw : Memory
  /-- The syndrome memory (R37). -/
  syn : Memory
  /-- The grayscale image memory (R38). -/
  luma : Memory
  /-- The binary image memory (R39). -/
  bin : Memory
  /-- The model's own: the pending events, the next one first (log entry 1). -/
  agenda : List Event
  /-- The model's own: the answer to the last host access (log entry 3). -/
  reply : BusReply
  /-- The model's own: the number of the next fresh free value (log entry 8). -/
  draws : Nat
deriving DecidableEq, Repr

/-- The reasons a step could stop with a fault: none. The spec leaves no host action and no command without one of the
outcomes its rules list, and "no command or access can make the block `stuck`" (spec/93_implementation_defined.md section 1;
log entry 10). Nothing raises a fault; that is neither safe nor unsafe, since no behaviour is cut off. -/
inductive Fault where
deriving DecidableEq, Repr

/-- The reasons an instruction could be refused. -/
inductive Refusal where
  /-- Raised by an arm of `exec` for an instruction that has no meaning yet; safe, since the machine stops. No arm does:
  every instruction has its meaning. -/
  | notModelled (mnemonic : String)
deriving DecidableEq, Repr

/-- A memory right after power-on: nothing written, every cell unspecified (R42, U1; log entries 4, 8). -/
def Memory.unspecified (epoch : Nat) : Memory := { epoch := epoch, cells := [] }

/-- The state after reset (R42, spec/70_reset_and_hazards.md R250, R251, R253): every register at its listed value, QRB idle, the
memories unspecified. -/
def State.reset : State where
  ie := false
  busy := false
  done := false
  perr := false
  err := .success
  errBefore := .success
  cmdl := 0
  result := 0
  rsN := 0
  rsK := 0
  nerr := 0
  synz := false
  imgW := 0
  imgH := 0
  blkSz := 0
  gridX := 0
  gridY := 0
  cw := Memory.unspecified 0
  syn := Memory.unspecified 0
  luma := Memory.unspecified 0
  bin := Memory.unspecified 0
  agenda := []
  reply := .none
  draws := 1

end Sys2Proof.Machine
end

