-- ==== Sys2Proof/Machine/Ops.lean ====
section
/-!
DEFINITION. The named operations over the memories and the registers: reading and writing cells by index
(spec/20_memory.md R71), the acceptance of a command and its two completions (spec/40_control.md R110 to R112; `State.raise` is
QRB's one way of taking an error, spec/60_exceptions.md R220, R231), the writes of the result registers, and reset
(spec/70_reset_and_hazards.md R250 to R253).
-/

namespace Sys2Proof.Machine

/-! ### Cells -/

/-- The written value at an index, if there is one. An index not listed has no value here (log entry 5). -/
def cellLookup : List Host.Cell → Nat → Option Byte
  | [], _ => none
  | (k, v) :: rest, a => if k = a then some v else cellLookup rest a

/-- Write one cell, keeping the indices strictly rising. -/
def cellInsert : List Host.Cell → Nat → Byte → List Host.Cell
  | [], a, v => [(a, v)]
  | (k, w) :: rest, a, v =>
    if a < k then (a, v) :: (k, w) :: rest
    else if a = k then (a, v) :: rest
    else (k, w) :: cellInsert rest a v

/-- Indices strictly rising, each from `lo` up and below `size`: the canonical form of a memory's cells. -/
def cellsWf (size : Nat) : Nat → List Host.Cell → Bool
  | _, [] => true
  | lo, (k, _) :: rest => decide (lo ≤ k) && decide (k < size) && cellsWf size (k + 1) rest

/-- The canonical form of a memory of `size` cells: equal written contents are equal lists. -/
def Memory.wf (size : Nat) (m : Memory) : Bool := cellsWf size 0 m.cells

/-! ### The four memories -/

/-- Number of cells of each memory (spec/10_state.md R36 to R39). -/
def Bank.size : Bank → Nat
  | .cw => 256
  | .syn => 256
  | .luma => Config.maxPixels
  | .bin => Config.maxPixels / 8

/-- Offset of each memory's cell 0 in the window (spec/20_memory.md R60). -/
def Bank.base : Bank → Nat
  | .cw => 0x400
  | .syn => 0x500
  | .luma => 0x400000
  | .bin => 0x800000

/-- The memory of a bank. -/
def State.mem (s : State) : Bank → Memory
  | .cw => s.cw
  | .syn => s.syn
  | .luma => s.luma
  | .bin => s.bin

/-- The state with one memory replaced. -/
def State.setMem (s : State) (b : Bank) (m : Memory) : State :=
  match b with
  | .cw => { s with cw := m }
  | .syn => { s with syn := m }
  | .luma => { s with luma := m }
  | .bin => { s with bin := m }

/-- Every memory is in its canonical form. -/
def State.memWf (s : State) : Bool :=
  s.cw.wf Bank.cw.size && s.syn.wf Bank.syn.size && s.luma.wf Bank.luma.size && s.bin.wf Bank.bin.size

/-- The byte at index `i` of a memory of bank `b`: what was written there, else the cell's free value, which stays the same
until the cell is written (spec/20_memory.md R68, spec/70_reset_and_hazards.md R253, R259; log entry 4). -/
def Memory.byteAt (b : Bank) (m : Memory) (i : Nat) : Byte :=
  (cellLookup m.cells i).getD (Config.freeByte m.epoch (b.base + i))

/-- `CW[i]`, `SYN[i]`, `LUMA[i]` and the bytes of BIN (spec/00_scope.md R8, spec/20_memory.md R71). -/
def State.cell (s : State) (b : Bank) (i : Nat) : Byte := (s.mem b).byteAt b i

/-- `CW[i] <- v` and its like (R8, R71). -/
def State.setCell (s : State) (b : Bank) (i : Nat) (v : Byte) : State :=
  s.setMem b { s.mem b with cells := cellInsert (s.mem b).cells i v }

/-- Write consecutive cells from index `i` on. -/
def State.setCells (s : State) (b : Bank) : Nat → List Byte → State
  | _, [] => s
  | i, v :: vs => (s.setCell b i v).setCells b (i + 1) vs

/-- The bytes at indices `0 .. n-1` of a memory. -/
def State.cellsFrom0 (s : State) (b : Bank) (n : Nat) : List Byte := (List.range n).map (s.cell b)

/-- `BINBIT[p]`: bit `p mod 8` of BIN byte `p div 8` (spec/20_memory.md R62). -/
def State.binBit (s : State) (p : Nat) : Bool := (s.cell .bin (p / 8)).getLsbD (p % 8)

/-! ### The life of a command -/

/-- The word of the command that is running: QRB's stand-in for a fetch (spec/10_state.md R22, R40). -/
def State.fetch (s : State) : Word := s.cmdl

/-- Acceptance of a command word (spec/40_control.md R110). The code that ERR held is kept beside the cleared one, because a read
gives it until completion (R256, `State.errRead`; log entry 23). -/
def State.accept (w : Word) (s : State) : State :=
  { s with cmdl := w, busy := true, done := false, err := .success, errBefore := s.err }

/-- `complete()`: successful completion, after the command's own writes (R111). Results appear here and not before (R256). -/
def State.complete (s : State) : State :=
  { s with err := .success, done := true, busy := false }

/-- `raise <Error>(code)`: failing completion, after the writes the command's rule lists for that failure (R112). It is QRB's
whole way of taking an error: nothing is saved, no mode changes, control goes nowhere (spec/60_exceptions.md R220, R231). -/
def State.raise (e : ErrorCode) (s : State) : State :=
  { s with err := e, done := true, busy := false }

/-! ### Result registers -/

/-- `reg.RESULT <- zext_32(v)` (spec/10_state.md R27). -/
def State.setResult (v : Byte) (s : State) : State := { s with result := v }

/-- `reg.RS_STAT <- {SYNZ, NERR}` (R30). -/
def State.setRsStat (synz : Bool) (nerr : Nat) (s : State) : State :=
  { s with synz := synz, nerr := BitVec.ofNat 8 nerr }

/-- `reg.BIN_BLKSZ <- S` and `reg.BIN_GRID <- {NBY, NBX}` (R33, R34). -/
def State.setBinGeometry (size nbx nby : Nat) (s : State) : State :=
  { s with blkSz := BitVec.ofNat 13 size, gridX := BitVec.ofNat 16 nbx, gridY := BitVec.ofNat 16 nby }

/-! ### Model bookkeeping -/

/-- The state with other pending events. -/
def State.withAgenda (evs : List Event) (s : State) : State := { s with agenda := evs }

/-- The state with a new answer on the bus. -/
def State.withReply (r : BusReply) (s : State) : State := { s with reply := r }

/-- A free value has been drawn. -/
def State.drawn (s : State) : State := { s with draws := s.draws + 1 }

/-! ### Reset -/

/-- The memories a command writes, which an interrupting reset leaves unspecified (spec/70_reset_and_hazards.md R252). -/
def banksWritten : Instr → List Bank
  | .nop => []
  | .gfadd _ _ => []
  | .gfmul _ _ => []
  | .gfdiv _ _ => []
  | .gfinv _ => []
  | .gfexp _ => []
  | .gflog _ => []
  | .rssyn => [.syn]
  | .rsdec => [.cw, .syn]
  | .binarize => [.bin]

/-- The memories that the running command writes; none if QRB is idle or the latched word is illegal (R252; log entry 18). -/
def State.banksAtRisk (s : State) : List Bank :=
  if s.busy then
    match decode s.fetch with
    | .ok i => banksWritten i
    | .error _ => []
  else []

/-- Some memories become unspecified: their cells hold the free contents number `d` (U1, U3; log entry 6). -/
def State.loseBanks (d : Nat) : List Bank → State → State
  | [], s => s
  | b :: bs, s => (s.setMem b (Memory.unspecified d)).loseBanks d bs

/-- Every register at its reset value (spec/10_state.md R42); memories and the model's own fields as they are. -/
def State.resetRegisters (s : State) : State :=
  { State.reset with
    cw := s.cw, syn := s.syn, luma := s.luma, bin := s.bin
    agenda := s.agenda, reply := s.reply, draws := s.draws }

/-- Reset with power kept (R250, R252, R253): registers reset, the running command abandoned, memories kept but for those
the abandoned command writes, which become unspecified. -/
def State.resetKeepingPower (s : State) : State :=
  ((s.loseBanks s.draws s.banksAtRisk).resetRegisters).drawn

/-- Power-on (R250, R253): registers reset, all memories unspecified. -/
def State.powerOn (s : State) : State :=
  ((s.loseBanks s.draws [.cw, .syn, .luma, .bin]).resetRegisters).drawn

end Sys2Proof.Machine
end

