-- ==== Sys2Proof/Machine/Flags.lean ====
section
/-!
DEFINITION. The status flags and the words they are read in (spec/10_state.md R25, R30, R41, R45; spec/60_exceptions.md R221, R229).
QRB has no arithmetic condition codes.
-/

namespace Sys2Proof.Machine

/-- The 8-bit code of STATUS.ERR (spec/60_exceptions.md R221). -/
def ErrorCode.code : ErrorCode → Byte
  | .success => 0x00
  | .binarizationFailed => 0x01
  | .uncorrectableBlock => 0x06
  | .illegalCommand => 0x80
  | .badConfig => 0x81
  | .gfDomain => 0x82

/-- A width of bits that reads 0 (R44). -/
def zeros (n : Nat) : BitVec n := 0#n

/-- STATUS.ERR as a read gives it: while BUSY = 1 the code from before the command (spec/70_reset_and_hazards.md R256, spec/92_eei_decisions.md D8), else
the register (R25). DEDUCED: the 0x00 that acceptance writes (R25, R110) stands in the register and is not read before BUSY falls (log entry 23). -/
def State.errRead (s : State) : ErrorCode := if s.busy then s.errBefore else s.err

/-- STATUS as it reads: ERR in bits 15:8, PERR bit 2, DONE bit 1, BUSY bit 0, the rest 0 (R25). -/
def State.statusWord (s : State) : Word :=
  zeros 16 ++ s.errRead.code ++ zeros 5 ++ BitVec.ofBool s.perr ++ BitVec.ofBool s.done ++ BitVec.ofBool s.busy

/-- CTRL as it reads: IE in bit 0 (R24). -/
def State.ctrlWord (s : State) : Word := zeros 31 ++ BitVec.ofBool s.ie

/-- RS_STAT as it reads: SYNZ in bit 8, NERR in bits 7:0 (R30). -/
def State.rsStatWord (s : State) : Word := zeros 23 ++ BitVec.ofBool s.synz ++ s.nerr

/-- A host write to STATUS of the word `v` while BUSY = 0: the two write-1-to-clear actions and nothing else (R25). -/
def State.writeStatus (v : Word) (s : State) : State :=
  { s with done := s.done && !v.getLsbD 1, perr := s.perr && !v.getLsbD 2 }

/-- The protocol error: a host write arrived while BUSY = 1 (R25, spec/20_memory.md R73). -/
def State.protocolError (s : State) : State := { s with perr := true }

/-- The interrupt output: `STATUS.DONE and CTRL.IE`, a level (R41, spec/60_exceptions.md R229). -/
def State.irq (s : State) : Bool := s.done && s.ie

/-- The SYNZ flag: every computed syndrome is zero (R30, spec/43_reed_solomon.md R163, R165). -/
def allZero (syndromes : List Byte) : Bool := syndromes.all (· == 0)

end Sys2Proof.Machine
end

