-- ==== Sys2Proof/Machine/Bus.lean ====
section
/-!
DEFINITION. The host's bus: the address map, the two host primitives MemRead and MemWrite (spec/20_memory.md R60 to R73), and the
registers as the host reads and writes them (spec/10_state.md R23 to R35, R44).
-/

namespace Sys2Proof.Machine

/-! ### Address map -/

/-- Bytes moved by an access (R65). -/
def Width.bytes : Width → Nat
  | .w8 => 1
  | .w16 => 2
  | .w32 => 4

/-- What an offset of the window belongs to (R60). -/
inductive Region where
  /-- The registers, 0x000000 to 0x0000FF. -/
  | regs
  /-- Byte `index` of a memory. -/
  | cell (b : Bank) (index : Nat)
  /-- Nothing. -/
  | unmapped
deriving DecidableEq, Repr

/-- The offset lies in the window of a memory. -/
def Bank.covers (b : Bank) (off : Nat) : Bool := decide (b.base ≤ off) && decide (off < b.base + b.size)

/-- The address map (R60). -/
def regionOf (off : Nat) : Region :=
  if off < 0x100 then .regs
  else if Bank.cw.covers off then .cell .cw (off - Bank.cw.base)
  else if Bank.syn.covers off then .cell .syn (off - Bank.syn.base)
  else if Bank.luma.covers off then .cell .luma (off - Bank.luma.base)
  else if Bank.bin.covers off then .cell .bin (off - Bank.bin.base)
  else .unmapped

/-- The offset is a multiple of the access size (R66). -/
def aligned (off : Nat) (w : Width) : Bool := off % w.bytes == 0

/-- The access is accepted on the bus: aligned, mapped, and 32 bits wide if it is to the registers (R65 to R67). -/
def accessOk (off : Nat) (w : Width) : Bool :=
  aligned off w &&
    match regionOf off with
    | .regs => w == .w32
    | .cell _ _ => true
    | .unmapped => false

/-! ### Registers -/

/-- A host read of the register at an offset below 0x100; reserved registers read 0 (spec/10_state.md R23 to R35). -/
def State.readReg (s : State) (off : Nat) : Word :=
  match off with
  | 0x00 => Config.idValue
  | 0x04 => s.ctrlWord
  | 0x08 => s.statusWord
  | 0x0C => s.cmdl
  | 0x10 => zeros 24 ++ s.result
  | 0x14 => zeros 24 ++ s.rsN
  | 0x18 => zeros 24 ++ s.rsK
  | 0x1C => s.rsStatWord
  | 0x20 => zeros 19 ++ s.imgW
  | 0x24 => zeros 19 ++ s.imgH
  | 0x28 => zeros 19 ++ s.blkSz
  | 0x2C => s.gridY ++ s.gridX
  | _ => 0

/-- A host write of `v` to the register at an offset below 0x100, while BUSY = 0: only the named writable fields take
bits (R44), read-only and reserved registers ignore it (R35, R69), CMD accepts a command (R26). -/
def State.writeReg (off : Nat) (v : Word) (s : State) : State :=
  match off with
  | 0x04 => { s with ie := v.getLsbD 0 }
  | 0x08 => s.writeStatus v
  | 0x0C => s.accept v
  | 0x14 => { s with rsN := v.setWidth 8 }
  | 0x18 => { s with rsK := v.setWidth 8 }
  | 0x20 => { s with imgW := v.setWidth 13 }
  | 0x24 => { s with imgH := v.setWidth 13 }
  | _ => s

/-! ### Byte order -/

/-- Byte `i` of a word, byte 0 the least significant (R61). -/
def byteOfWord (v : Word) (i : Nat) : Byte := (v >>> (8 * i)).setWidth 8

/-- The bytes of an access, the one at the lowest offset first (R61). -/
def bytesOf (v : Word) (w : Width) : List Byte := (List.range w.bytes).map (byteOfWord v)

/-- The little-endian value of some bytes (R61). -/
def wordOfBytes : List Byte → Word
  | [] => 0
  | b :: bs => b.setWidth 32 ||| (wordOfBytes bs <<< 8)

/-! ### The host primitives -/

/-- The little-endian value of the `n` cells from `i` on (R61, R70). -/
def State.readCells (s : State) (b : Bank) (i n : Nat) : Word :=
  wordOfBytes ((List.range n).map fun k => s.cell b (i + k))

/-- What a read of a memory returns while BUSY = 1: fresh free bytes (R73, U2; log entry 7). -/
def State.busyRead (s : State) (n : Nat) : Word :=
  wordOfBytes ((List.range n).map fun k => Config.freeByte s.draws k)

/-- `MemRead(off, n)` (R70). The value is the reply; nothing else of QRB changes (R68). -/
def State.memRead (off : Offset) (w : Width) (s : State) : State :=
  if !accessOk off.toNat w then s.withReply .busError
  else
    match regionOf off.toNat with
    | .regs => s.withReply (.data (s.readReg off.toNat))
    | .cell b i =>
      if s.busy then s.drawn.withReply (.data (s.busyRead w.bytes))
      else s.withReply (.data (s.readCells b i w.bytes))
    | .unmapped => s.withReply .busError

/-- A host write into a memory while BUSY = 0: the bytes are stored little-endian; SYN ignores them (R69, R70). -/
def State.hostStore (b : Bank) (i : Nat) (w : Width) (v : Word) (s : State) : State :=
  match b with
  | .syn => s
  | .cw => s.setCells .cw i (bytesOf v w)
  | .luma => s.setCells .luma i (bytesOf v w)
  | .bin => s.setCells .bin i (bytesOf v w)

/-- `MemWrite(off, n, v)` (R70): refused accesses change nothing, a write while BUSY = 1 is dropped and sets PERR (R73), any
other is performed as its target says. -/
def State.memWrite (off : Offset) (w : Width) (v : Word) (s : State) : State :=
  if !accessOk off.toNat w then s.withReply .busError
  else if s.busy then s.protocolError.withReply .accepted
  else
    match regionOf off.toNat with
    | .regs => (s.writeReg off.toNat v).withReply .accepted
    | .cell b i => (s.hostStore b i w v).withReply .accepted
    | .unmapped => s.withReply .busError

end Sys2Proof.Machine
end

