-- ==== Sys2Proof/Machine/Operands.lean ====
section
/-!
DEFINITION. The operands of the commands that stand in registers and memories (spec/30_encoding.md R92: a command word carries two
bytes and nothing else): the parameters of a Reed–Solomon block (spec/43_reed_solomon.md R160, R161) and of an image
(spec/44_binarizer.md R190, R191).
-/

namespace Sys2Proof.Machine

/-! ### Reed–Solomon block -/

/-- `n`: the number of codewords of the block (R160). -/
def State.blockN (s : State) : Nat := s.rsN.toNat

/-- `k`: the number of data codewords of the block (R160). -/
def State.blockK (s : State) : Nat := s.rsK.toNat

/-- `E = n - k`: the number of error-correction codewords (R160). -/
def State.blockE (s : State) : Nat := s.blockN - s.blockK

/-- The block configuration is legal: `1 <= k < n <= 255` (R160). -/
def State.blockLegal (s : State) : Bool :=
  decide (1 ≤ s.blockK) && decide (s.blockK < s.blockN) && decide (s.blockN ≤ Config.maxBlockLength)

/-- `CW[0 .. n-1]`: the codewords of the block, data first (R160, spec/20_memory.md R64). -/
def State.codewords (s : State) : List Byte := s.cellsFrom0 .cw s.blockN

/-! ### Image -/

/-- `W`: the image width in pixels (R190). -/
def State.width (s : State) : Nat := s.imgW.toNat

/-- `H`: the image height in pixels (R190). -/
def State.height (s : State) : Nat := s.imgH.toNat

/-- `W·H`: the number of pixels. -/
def State.pixels (s : State) : Nat := s.width * s.height

/-- A side is below the least block size: the image is degenerate (R191 a). -/
def State.imageDegenerate (s : State) : Bool :=
  decide (s.width < Config.minBlock) || decide (s.height < Config.minBlock)

/-- The image does not fit the LUMA memory (R191 b). -/
def State.imageTooLarge (s : State) : Bool := decide (Config.maxPixels < s.pixels)

/-- `LUMA[p]`, the luma of pixel `p = y·W + x`, 0 to 255, 0 darkest (spec/20_memory.md R63). -/
def State.lumaAt (s : State) (p : Nat) : Nat := (s.cell .luma p).toNat

end Sys2Proof.Machine
end

