-- ==== Sys2Proof/Machine/Binarizer.lean ====
section
/-!
DEFINITION. The adaptive binarizer and its command BINARIZE (spec/44_binarizer.md R190 to R204). All arithmetic is over the natural
numbers, every division rounded down where it is written (spec/00_scope.md R7). An image is given by `lum`, the luma of each pixel index.
-/

namespace Sys2Proof.Machine

/-! ### Blocks -/

/-- `S`, the block size (R192). -/
def blockSize (w h : Nat) : Nat := max (min w h / Config.blocksTarget) Config.minBlock

/-- The number of blocks along a side of length `d`: `ceil(d / S)` (R193). -/
def blocksAlong (d size : Nat) : Nat := (d + size - 1) / size

/-- The origin of block `index` along a side of length `d` (R194). -/
def blockOrigin (index size d : Nat) : Nat := min (index * size) (d - size)

/-- The luma of the pixels of the block with origin `(ox, oy)` (R194). -/
def blockLumas (lum : Nat → Nat) (w size ox oy : Nat) : List Nat :=
  (List.range size).flatMap fun dy => (List.range size).map fun dx => lum ((oy + dy) * w + (ox + dx))

/-- Minimum and maximum of a block (R195). -/
structure BlockRange where
  mn : Nat
  mx : Nat
deriving DecidableEq, Repr

/-- The smallest and the largest of some luma values (R195). -/
def lumaRange (ls : List Nat) : BlockRange := ⟨ls.foldl min 255, ls.foldl max 0⟩

/-- `mn(bx,by)` and `mx(bx,by)` (R195). -/
def blockRange (lum : Nat → Nat) (w h size bx by' : Nat) : BlockRange :=
  lumaRange (blockLumas lum w size (blockOrigin bx size w) (blockOrigin by' size h))

/-! ### Raw thresholds -/

/-- The threshold of a high-contrast block (R196). -/
def highThreshold (r : BlockRange) : Nat :=
  let s := r.mn + r.mx
  let mid := s / 2
  min 255 (min (mid + s / 4) (mid * 11 / 10))

/-- `low`: the minimum less one, saturated at 0 (R197). -/
def lowThreshold (r : BlockRange) : Nat := max r.mn 1 - 1

/-- The raw thresholds of the three neighbours that R197 (b) averages. -/
structure Neighbours where
  left : Nat
  top : Nat
  topLeft : Nat
deriving DecidableEq, Repr

/-- The raw threshold of a block (R196, R197). A block on the top row or the left column has no neighbours. -/
def rawThreshold (r : BlockRange) : Option Neighbours → Nat
  | none => if Config.minRange ≤ r.mx - r.mn then highThreshold r else lowThreshold r
  | some nb =>
    if Config.minRange ≤ r.mx - r.mn then highThreshold r
    else
      let avg := (nb.left + nb.top + nb.topLeft) / 3
      if r.mn < avg then avg else lowThreshold r

/-- The raw thresholds of the rest of a row, left to right (R198). `before` is what the row already has to the left: the left
and the top-left threshold, nothing at the first block; `above` is the row above from here on, empty for the top row. -/
def rawRowFrom (before : Option (Nat × Nat)) : List BlockRange → List Nat → List Nat
  | [], _ => []
  | r :: rs, above =>
    let nb : Option Neighbours :=
      match before, above with
      | some (left, topLeft), top :: _ => some ⟨left, top, topLeft⟩
      | _, _ => none
    let v := rawThreshold r nb
    v :: rawRowFrom (some (v, above.headD 0)) rs above.tail

/-- The raw thresholds of the rows, top to bottom, below the row `above` (R198). -/
def rawRows : List (List BlockRange) → List Nat → List (List Nat)
  | [], _ => []
  | rs :: rows, above =>
    let row := rawRowFrom none rs above
    row :: rawRows rows row

/-- The minima and maxima of all blocks, row by row (R190 step 2, R195). -/
def rangeGrid (lum : Nat → Nat) (w h : Nat) : List (List BlockRange) :=
  let size := blockSize w h
  (List.range (blocksAlong h size)).map fun by' =>
    (List.range (blocksAlong w size)).map fun bx => blockRange lum w h size bx by'

/-- `raw` for every block, in row-major order (R196 to R198). -/
def rawGrid (lum : Nat → Nat) (w h : Nat) : List (List Nat) := rawRows (rangeGrid lum w h) []

/-- The entry of a grid of thresholds at column `bx`, row `by`. -/
def gridAt (g : List (List Nat)) (bx by' : Nat) : Nat := (g.getD by' []).getD bx 0

/-! ### Smoothing and output -/

/-- `clamp(v, 0, hi)` of an index that may be negative (spec/00_scope.md R7). -/
def clampIndex (v : Int) (hi : Nat) : Nat := (max 0 (min v (hi : Int))).toNat

/-- The offsets of the 5×5 window along an axis (R199). -/
def windowOffsets : List Int := [-2, -1, 0, 1, 2]

/-- `sm(bx,by)`: the mean of the 25 raw thresholds around a block, each index clamped into the grid (R199). -/
def smoothed (raw : List (List Nat)) (nbx nby bx by' : Nat) : Nat :=
  (windowOffsets.flatMap fun dy =>
      windowOffsets.map fun dx =>
        gridAt raw (clampIndex (bx + dx) (nbx - 1)) (clampIndex (by' + dy) (nby - 1))).sum / 25

/-- `sm` for every block (R199). -/
def smoothGrid (lum : Nat → Nat) (w h : Nat) : List (List Nat) :=
  let size := blockSize w h
  let nbx := blocksAlong w size
  let nby := blocksAlong h size
  let raw := rawGrid lum w h
  (List.range nby).map fun by' => (List.range nbx).map fun bx => smoothed raw nbx nby bx by'

/-- `bof(v, D, NB)`: the block of a coordinate along a side of length `d` (R200). -/
def blockOf (v d size : Nat) : Nat := if d - size ≤ v then blocksAlong d size - 1 else v / size

/-- Whether pixel `p = y·W + x` is black, against the grid of smoothed thresholds (R201). -/
def pixelBlack (lum : Nat → Nat) (w h : Nat) (sm : List (List Nat)) (p : Nat) : Bool :=
  let size := blockSize w h
  decide (lum p ≤ gridAt sm (blockOf (p % w) w size) (blockOf (p / w) h size))

/-- BIN byte `j` after the write: its pixels below `pixels` from `black`, its other bits as they were (R201, R202). -/
def binByte (black : Nat → Bool) (pixels : Nat) (old : Byte) (j : Nat) : Byte :=
  (BitVec.ofBoolListLE ((List.range 8).map fun i =>
    if 8 * j + i < pixels then black (8 * j + i) else old.getLsbD i)).setWidth 8

/-! ### The command -/

/-- `BINBIT[p]` for every pixel of the image in the registers (R201, R202). -/
def State.storeBinary (s : State) : State :=
  let sm := smoothGrid s.lumaAt s.width s.height
  s.setCells .bin 0 ((List.range ((s.pixels + 7) / 8)).map fun j =>
    binByte (pixelBlack s.lumaAt s.width s.height sm) s.pixels (s.cell .bin j) j)

/-- The result registers of a successful BINARIZE (R203). -/
def State.storeGeometry (s : State) : State :=
  let size := blockSize s.width s.height
  s.setBinGeometry size (blocksAlong s.width size) (blocksAlong s.height size)

/-- BINARIZE (R190, R191). -/
def execBinarize (s : State) : Host.Outcome State Fault Refusal :=
  .next
    (if s.imageDegenerate then s.raise .binarizationFailed
     else if s.imageTooLarge then s.raise .badConfig
     else s.storeBinary.storeGeometry.complete)

end Sys2Proof.Machine
end

