-- ==== Sys2Proof/Machine/Control.lean ====
section
/-!
DEFINITION. The control command NOP (spec/40_control.md R113). QRB has no control transfer (R114).
-/

namespace Sys2Proof.Machine

/-- NOP: `complete()` (R113). -/
def execNop (s : State) : Host.Outcome State Fault Refusal := .next s.complete

end Sys2Proof.Machine
end

