-- ==== Sys2Proof/Machine/Gf256.lean ====
section
/-!
DEFINITION. The field GF(256) (spec/41_gf256.md R120 to R127) and the six GF commands (R128 to R133). Multiplication and division go by
the log and antilog tables, as the rules state them; the tables are the spec's printed ones, a row of sixteen entries to a numeral.
-/

namespace Sys2Proof.Machine

/-! ### The field -/

/-- Addition and subtraction: exclusive or (R122). -/
def gfAdd (a b : Byte) : Byte := a ^^^ b

/-- Multiplication by `x`, reduced by 0x11D (R120, R123). -/
def xtime (v : Byte) : Byte :=
  if v.toNat < 0x80 then v <<< 1 else (v <<< 1) ^^^ 0x1D

/-- The generator element (R123). -/
def alpha : Byte := 0x02

/-- Entry `i` of a printed table: the entries of a row stand from left to right. -/
def tableEntry (rows : List Nat) (i : Nat) : Nat :=
  ((rows.getD (i / 16) 0) >>> (8 * (15 - i % 16))) % 256

/-- The antilog table as printed (R123): row `r` holds `EXP[16r .. 16r+15]`. -/
def expRows : List Nat :=
  [0x01020408102040801D3A74E8CD871326,
   0x4C982D5AB475EAC98F03060C183060C0,
   0x9D274E9C254A94356AD4B577EEC19F23,
   0x468C050A142850A05DBA69D2B96FDEA1,
   0x5FBE61C2992F5EBC65CA890F1E3C78F0,
   0xFDE7D3BB6BD6B17FFEE1DFA35BB671E2,
   0xD9AF4386112244880D1A3468D0BD67CE,
   0x811F3E7CF8EDC7933B76ECC5973366CC,
   0x85172E5CB86DDAA94F9E214284152A54,
   0xA84D9A2952A455AA49923972E4D5B773,
   0xE6D1BF63C6913F7EFCE5D7B37BF6F1FF,
   0xE3DBAB4B963162C495376EDCA557AE41,
   0x82193264C88D070E1C3870E0DDA753A6,
   0x51A259B279F2F9EFC39B2B56AC458A09,
   0x122448903D7AF4F5F7F3FBEBCB8B0B16,
   0x2C58B07DFAE9CF831B366CD8AD478E01]

/-- The log table as printed (R124): row `r` holds `LOG[16r .. 16r+15]`. The first entry, printed `--`, does not exist;
the zero that stands in its place is never read (`gfLog`). -/
def logRows : List Nat :=
  [0x0000011902321AC603DF33EE1B68C74B,
   0x0464E00E348DEF811CC169F8C8084C71,
   0x058A652FE1240F2135938EDAF0128245,
   0x1DB5C27D6A27F9B9C99A09784DE472A6,
   0x06BF8B6266DD30FDE29825B310912288,
   0x36D094CE8F96DBBDF1D2135C83384640,
   0x1E42B6A3C3487E6E6B3A2854FA85BA3D,
   0xCA5E9B9F0A15792B4ED4E5AC73F3A757,
   0x0770C0F78C80630D674ADEED31C5FE18,
   0xE3A5997726B8B47C114492D92320892E,
   0x373FD15B95BCCFCD908797B2DCFCBE61,
   0xF256D3AB142A5D9E843C3953476D41A2,
   0x1F2D43D8B77BA476C41749EC7F0C6FF6,
   0x6CA13B52299D55AAFB6086B1BBCC3E5A,
   0xCB595FB09CA9A0510BF516EB7A752CD7,
   0x4FAED5E9E6E7ADE874D6F4EAA85058AF]

/-- `EXP[i]` for `0 <= i <= 255` (R123). -/
def expTable (i : Nat) : Byte := BitVec.ofNat 8 (tableEntry expRows i)

/-- `gf_log(a) = LOG[a]`; `LOG[0]` does not exist and is a free value (R124, R127; log entry 14). -/
def gfLog (a : Byte) : Nat :=
  if a = 0 then Config.logOfZero else tableEntry logRows a.toNat

/-- `gf_exp(e) = EXP[e mod 255]`, for any natural `e` (R127). -/
def gfExp (e : Nat) : Byte := expTable (e % 255)

/-- `gf_mul` (R125). -/
def gfMul (a b : Byte) : Byte :=
  if a = 0 ∨ b = 0 then 0 else expTable ((gfLog a + gfLog b) % 255)

/-- `gf_div`, undefined for a zero divisor (R126; log entry 14). -/
def gfDiv (a b : Byte) : Byte :=
  if b = 0 then Config.quotientByZero a
  else if a = 0 then 0
  else expTable ((gfLog a + 255 - gfLog b) % 255)

/-- `gf_inv`, undefined for zero (R127; log entry 14). -/
def gfInv (a : Byte) : Byte :=
  if a = 0 then Config.inverseOfZero else expTable ((255 - gfLog a) % 255)

/-! ### The commands -/

/-- The success case of every GF command: RESULT is written and the command completes (R128 to R133). -/
def State.completeGf (v : Byte) (s : State) : State := (s.setResult v).complete

/-- GFADD a, b (R128). -/
def execGfadd (a b : Byte) (s : State) : Host.Outcome State Fault Refusal :=
  .next (s.completeGf (gfAdd a b))

/-- GFMUL a, b (R129). -/
def execGfmul (a b : Byte) (s : State) : Host.Outcome State Fault Refusal :=
  .next (s.completeGf (gfMul a b))

/-- GFDIV a, b: dividend `a`, divisor `b` (R130). -/
def execGfdiv (a b : Byte) (s : State) : Host.Outcome State Fault Refusal :=
  .next (if b = 0 then s.raise .gfDomain else s.completeGf (gfDiv a b))

/-- GFINV a (R131). -/
def execGfinv (a : Byte) (s : State) : Host.Outcome State Fault Refusal :=
  .next (if a = 0 then s.raise .gfDomain else s.completeGf (gfInv a))

/-- GFEXP a: the exponent is the operand byte (R132). -/
def execGfexp (a : Byte) (s : State) : Host.Outcome State Fault Refusal :=
  .next (s.completeGf (expTable a.toNat))

/-- GFLOG a (R133). -/
def execGflog (a : Byte) (s : State) : Host.Outcome State Fault Refusal :=
  .next (if a = 0 then s.raise .gfDomain else s.completeGf (BitVec.ofNat 8 (gfLog a)))

end Sys2Proof.Machine
end

