-- ==== Sys2Proof/Machine/Polynomial.lean ====
section
/-!
DEFINITION. Polynomials over GF(256), as lists of coefficients with the constant term first (spec/42_polynomial.md R140 to R147). No
command exposes one (R149): these are the functions the Reed–Solomon commands call.
-/

namespace Sys2Proof.Machine

/-- A polynomial: `p_0, p_1, …`, the coefficient of `x^i` at place `i`. Trailing zeros make no difference (R140). -/
abbrev Poly := List Byte

/-- `p_coef(p, i)`: 0 beyond the sequence (R140). -/
def pCoef (p : Poly) (i : Nat) : Byte := p.getD i 0

/-- One more than the degree; 0 for the zero polynomial. -/
def pSize : Poly → Nat
  | [] => 0
  | c :: p =>
    let n := pSize p
    if n = 0 then (if c = 0 then 0 else 1) else n + 1

/-- `p_deg(p)`, -1 for the zero polynomial (R141). -/
def pDeg (p : Poly) : Int := (pSize p : Int) - 1

/-- `p_lead(p)`, the coefficient at the degree of a non-zero polynomial (R141). -/
def pLead (p : Poly) : Byte := pCoef p (pSize p - 1)

/-- `p_add(p, q)` (R142). -/
def pAdd : Poly → Poly → Poly
  | [], q => q
  | a :: p, [] => a :: p
  | a :: p, b :: q => gfAdd a b :: pAdd p q

/-- `p_scale(p, c)` (R143). -/
def pScale (p : Poly) (c : Byte) : Poly := p.map (gfMul · c)

/-- `p_shift(p, d)` (R144). -/
def pShift (p : Poly) (d : Nat) : Poly := List.replicate d 0 ++ p

/-- The monomial `c·x^d` (R144). -/
def pMonomial (c : Byte) (d : Nat) : Poly := pShift (pScale [1] c) d

/-- `p_mul(p, q)` (R145): the product by the constant term of `p`, and the product by the rest one place up. -/
def pMul : Poly → Poly → Poly
  | [], _ => []
  | a :: p, q => pAdd (pScale q a) (0 :: pMul p q)

/-- `p_eval(p, v)`, in Horner's form (R146). -/
def pEval (p : Poly) (v : Byte) : Byte := p.foldr (fun c acc => gfAdd (gfMul acc v) c) 0

/-- The loop of long division (R147), at most `fuel` passes, from the quotient and remainder so far. -/
def pDivLoop (b : Poly) : Nat → Poly → Poly → Poly × Poly
  | 0, q, r => (q, r)
  | fuel + 1, q, r =>
    if pDeg b ≤ pDeg r then
      let d := pSize r - pSize b
      let c := gfMul (pLead r) (gfInv (pLead b))
      pDivLoop b fuel (pAdd q (pMonomial c d)) (pAdd r (pShift (pScale b c) d))
    else (q, r)

/-- `p_divmod(a, b)` for a non-zero `b` (R147). Each pass lowers the degree of the remainder, so `p_deg(a) + 1` passes are
always enough. -/
def pDivmod (a b : Poly) : Poly × Poly := pDivLoop b (pSize a) [] a

end Sys2Proof.Machine
end

