-- ==== Sys2Proof/Machine/ReedSolomon.lean ====
section
/-!
DEFINITION. The Reed–Solomon decoder of one block and its commands RSSYN and RSDEC (spec/43_reed_solomon.md R160 to R177). The decoder is a
function of the codewords; the commands read and write the memories around it.
-/

namespace Sys2Proof.Machine

/-- `R(x)`: the first codeword is the coefficient of the highest power (R161). -/
def receivedPoly (codewords : List Byte) : Poly := codewords.reverse

/-- `S_0 .. S_(E-1)`, `S_i = R(ALPHA^i)` (R162). As a polynomial it is `S(x)`, `S_i` the coefficient of `x^i` (R166). -/
def syndromes (e : Nat) (codewords : List Byte) : List Byte :=
  (List.range e).map fun i => pEval (receivedPoly codewords) (gfExp i)

/-- `tmax = E div 2` (R160). -/
def tmaxOf (e : Nat) : Nat := e / 2

/-- The loop of Euclid's algorithm (R167), at most `fuel` passes: from `(rp, r, tp, t)` to the last `(t, r)`. -/
def euclidLoop (tmax : Nat) : Nat → Poly → Poly → Poly → Poly → Poly × Poly
  | 0, _, r, _, t => (t, r)
  | fuel + 1, rp, r, tp, t =>
    if (tmax : Int) ≤ pDeg r then
      let qr := pDivmod rp r
      euclidLoop tmax fuel r qr.2 t (pAdd (pMul qr.1 t) tp)
    else (t, r)

/-- Euclid's algorithm on `x^E` and `S(x)`: the final `(t, r)` (R167). At most `E` passes are needed. -/
def euclid (e : Nat) (s : Poly) : Poly × Poly :=
  euclidLoop (tmaxOf e) e (pMonomial 1 e) s [] [1]

/-- The error locator and the error evaluator, unless the locator cannot be normalised (R168). -/
def locatorEvaluator (e : Nat) (s : Poly) : Option (Poly × Poly) :=
  let tr := euclid e s
  let c := pCoef tr.1 0
  if c = 0 then none else some (pScale tr.1 (gfInv c), pScale tr.2 (gfInv c))

/-- The non-zero field elements in increasing order of the byte value. -/
def nonzeroBytes : List Byte := (List.range 255).map fun i => BitVec.ofNat 8 (i + 1)

/-- Chien search: the roots of the locator (R170). -/
def chienRoots (sigma : Poly) : List Byte := nonzeroBytes.filter fun beta => pEval sigma beta == 0

/-- `l = gf_log(gf_inv(beta))`: the power of `x` whose coefficient a root marks (R172). -/
def rootPosition (beta : Byte) : Nat := gfLog (gfInv beta)

/-- `den` of Forney's formula: the product over the other roots (R173). -/
def forneyDen (roots : List Byte) (beta : Byte) : Byte :=
  (roots.filter (· != beta)).foldl (fun den beta2 => gfMul den (gfAdd 1 (gfMul (gfInv beta2) beta))) 1

/-- The error magnitude at a root, by Forney's formula (R173). -/
def magnitude (omega : Poly) (roots : List Byte) (beta : Byte) : Byte :=
  gfDiv (pEval omega beta) (forneyDen roots beta)

/-- `C'`: the codewords with every located byte corrected, `CW[n - 1 - l]` by its magnitude (R174). -/
def candidate (codewords : List Byte) (omega : Poly) (roots : List Byte) : List Byte :=
  roots.foldl
    (fun c beta =>
      c.modify (codewords.length - 1 - rootPosition beta) fun v => gfAdd v (magnitude omega roots beta))
    codewords

/-- Steps 3 to 9 of RSDEC on a block with a non-zero syndrome (R164): the corrected codewords and the number of errors, or
nothing if one of the five tests fails (R168, R169, R171, R172, R174, R176). -/
def correctBlock (e : Nat) (codewords : List Byte) : Option (List Byte × Nat) :=
  match locatorEvaluator e (syndromes e codewords) with
  | none => none
  | some (sigma, omega) =>
    let roots := chienRoots sigma
    let fixed := candidate codewords omega roots
    if (tmaxOf e : Int) < pDeg sigma then none
    else if (roots.length : Int) ≠ pDeg sigma then none
    else if roots.any (fun beta => decide (codewords.length ≤ rootPosition beta)) then none
    else if allZero (syndromes e fixed) then some (fixed, roots.length)
    else none

/-! ### The commands -/

/-- The syndromes of the block in CW (R162). -/
def State.blockSyndromes (s : State) : List Byte := syndromes s.blockE s.codewords

/-- `SYN[i] <- S_i` for `0 <= i < E` (R163, R164 step 1). -/
def State.storeSyndromes (s : State) : State := s.setCells .syn 0 s.blockSyndromes

/-- RSSYN (R163). -/
def execRssyn (s : State) : Host.Outcome State Fault Refusal :=
  .next
    (if s.blockLegal then (s.storeSyndromes.setRsStat (allZero s.blockSyndromes) 0).complete
     else s.raise .badConfig)

/-- RSDEC (R164, R165, R175 to R177). -/
def execRsdec (s : State) : Host.Outcome State Fault Refusal :=
  .next
    (if !s.blockLegal then s.raise .badConfig
     else if allZero s.blockSyndromes then (s.storeSyndromes.setRsStat true 0).complete
     else
       match correctBlock s.blockE s.codewords with
       | none => s.storeSyndromes.raise .uncorrectableBlock
       | some (fixed, nu) => ((s.storeSyndromes.setCells .cw 0 fixed).setRsStat false nu).complete)

end Sys2Proof.Machine
end

