-- ==== Sys2Proof/Machine/Dispatch.lean ====
section
/-!
DEFINITION. The meaning of each command: the engine's completion of it (spec/40_control.md R111, R112), one arm per constructor of Instr.
-/

namespace Sys2Proof.Machine

def exec (i : Instr) (s : State) : Host.Outcome State Fault Refusal :=
  match i with
  | .nop => Sys2Proof.Machine.execNop s
  | .gfadd a b => Sys2Proof.Machine.execGfadd a b s
  | .gfmul a b => Sys2Proof.Machine.execGfmul a b s
  | .gfdiv a b => Sys2Proof.Machine.execGfdiv a b s
  | .gfinv a => Sys2Proof.Machine.execGfinv a s
  | .gfexp a => Sys2Proof.Machine.execGfexp a s
  | .gflog a => Sys2Proof.Machine.execGflog a s
  | .rssyn => Sys2Proof.Machine.execRssyn s
  | .rsdec => Sys2Proof.Machine.execRsdec s
  | .binarize => Sys2Proof.Machine.execBinarize s

end Sys2Proof.Machine
end

