-- ==== Sys2Proof/Machine/Step.lean ====
section
/-!
DEFINITION. One step of QRB (spec/00_scope.md R9): the next pending event happens, or, when none is pending, the engine has its turn.
-/

namespace Sys2Proof.Machine

/-- The engine's turn: the running command completes (spec/40_control.md R111, R112; spec/70_reset_and_hazards.md R260, R261), an illegal word with
IllegalCommand and nothing else (spec/30_encoding.md R94); an idle engine holds all state (spec/60_exceptions.md R239). -/
def engineTurn (s : State) : Host.Outcome State Fault Refusal :=
  if s.busy then
    match decode s.fetch with
    | .ok i => exec i s
    | .error _ => .next (s.raise .illegalCommand)
  else .next s

/-- What an event does, once it has been taken off the agenda. -/
def handleEvent (e : Event) (s : State) : Host.Outcome State Fault Refusal :=
  match e with
  | .engine => engineTurn s
  | .read off w => .next (s.memRead off w)
  | .write off w v => .next (s.memWrite off w v)
  | .reset => .next s.resetKeepingPower
  | .powerOn => .next s.powerOn

/-- One step. With nothing pending the engine has its turn, so a running command always completes (R261; log entry 1). -/
def step (s : State) : Host.Outcome State Fault Refusal :=
  match s.agenda with
  | [] => engineTurn s
  | e :: rest => handleEvent e (s.withAgenda rest)

/-- The state in which the command word `w` has been accepted and the engine has the next turn, so that the very next
step runs it (spec/40_control.md R110; log entry 2). -/
def State.withFetchWord (s : State) (nbits w : Nat) : State :=
  (s.accept (BitVec.ofNat 32 (w % 2 ^ nbits))).withAgenda (.engine :: s.agenda)

end Sys2Proof.Machine
end

