-- ==== Sys2Proof/Safety.lean ====
section
/-!
DEFINITION. The terms the claims use: the invariant of the machine, reference forms of the arithmetic written independently of the model's
(spec/41_gf256.md R125, spec/43_reed_solomon.md R162, spec/42_polynomial.md R146, spec/44_binarizer.md R198), codewords and distances, and when two states agree on
what a command reads.
-/

namespace Sys2Proof.Machine

/-! ### The invariant -/

/-- The result registers of the binarizer hold reset values or the geometry of a legal image (spec/10_state.md R33, R34,
spec/44_binarizer.md R193). -/
def State.geometryWf (s : State) : Prop :=
  (s.blkSz = 0 ∧ s.gridX = 0 ∧ s.gridY = 0) ∨
    (16 ≤ s.blkSz.toNat ∧ s.blkSz.toNat ≤ 51 ∧
      1 ≤ s.gridX.toNat ∧ s.gridX.toNat ≤ 512 ∧ 1 ≤ s.gridY.toNat ∧ s.gridY.toNat ≤ 512 ∧
      s.gridX.toNat * s.gridY.toNat ≤ 512 * 43)

/-- Every memory's unspecified contents were drawn already, so that the next draw is fresh (the model's own, log entry 8). -/
def State.drawsFresh (s : State) : Prop :=
  s.cw.epoch < s.draws ∧ s.syn.epoch < s.draws ∧ s.luma.epoch < s.draws ∧ s.bin.epoch < s.draws

/-- What every step keeps: canonical memories; a running command has DONE = 0 and ERR = 0 (R25, R110); NERR is at most
127 and is 0 when SYNZ is set (R30); legal geometry; fresh draws. -/
structure State.Inv (s : State) : Prop where
  memories : s.memWf = true
  running : s.busy = true → s.done = false ∧ s.err = .success
  errorCount : s.nerr.toNat ≤ 127
  cleanBlock : s.synz = true → s.nerr = 0
  geometry : s.geometryWf
  fresh : s.drawsFresh

/-! ### Runs -/

/-- The state after `k` steps (every step answers a next state; a stop would leave the state as it is). -/
def stepsFrom : Nat → State → State
  | 0, s => s
  | k + 1, s =>
    match step s with
    | .next t => stepsFrom k t
    | .fault _ => s
    | .refused _ => s

/-! ### Reference forms -/

/-- The product of two bytes as polynomials over GF(2), reduced modulo x^8+x^4+x^3+x^2+1 (R120, R125): the multiples of `a`
by the powers of `x` that occur in `b`, added up. -/
def carrylessProduct (a b : Byte) : Byte :=
  (List.range 8).foldl (fun acc i => if b.getLsbD i then acc ^^^ xtime^[i] a else acc) 0

/-- The sum in the field of some elements. -/
def fieldSum (vs : List Byte) : Byte := vs.foldl gfAdd 0

/-- The power `v^i` in the field, by repeated multiplication. -/
def fieldPower (v : Byte) (i : Nat) : Byte := (gfMul v)^[i] 1

/-- `p_0 + p_1·v + … + p_m·v^m`, term by term (spec/42_polynomial.md R146). -/
def evalBySum (p : Poly) (v : Byte) : Byte :=
  fieldSum ((List.range p.length).map fun i => gfMul (pCoef p i) (fieldPower v i))

/-- The syndrome `S_i = c_0·x^(n-1) + … + c_(n-1)` at `x = ALPHA^i`, term by term (spec/43_reed_solomon.md R161, R162). -/
def syndromeBySum (codewords : List Byte) (i : Nat) : Byte :=
  fieldSum ((List.range codewords.length).map fun j =>
    gfMul (codewords.getD j 0) (fieldPower alpha (i * (codewords.length - 1 - j))))

/-- A function of block coordinates that obeys R196 and R197 at every block of an image (spec/44_binarizer.md R198). -/
def ObeysRawRules (lum : Nat → Nat) (w h : Nat) (raw : Nat → Nat → Nat) : Prop :=
  ∀ bx by', bx < blocksAlong w (blockSize w h) → by' < blocksAlong h (blockSize w h) →
    let r := blockRange lum w h (blockSize w h) bx by'
    let low := max r.mn 1 - 1
    let mid := (r.mn + r.mx) / 2
    let avg := (raw (bx - 1) by' + raw bx (by' - 1) + raw (bx - 1) (by' - 1)) / 3
    raw bx by' =
      if 12 ≤ r.mx - r.mn then min 255 (min (mid + (r.mn + r.mx) / 4) (mid * 11 / 10))
      else if bx = 0 ∨ by' = 0 then low
      else if r.mn < avg then avg
      else low

/-- `sm(bx,by)` from a raw threshold function: the mean of the 25 values around the block, each coordinate clamped into the
grid (R199). -/
def smoothOf (raw : Nat → Nat → Nat) (nbx nby bx by' : Nat) : Nat :=
  ((List.range 5).map fun dy => ((List.range 5).map fun dx =>
    raw (min (bx + dx - 2) (nbx - 1)) (min (by' + dy - 2) (nby - 1))).sum).sum / 25

/-! ### Codewords -/

/-- A block is a codeword of the code with `e` error-correction codewords iff all its syndromes are zero (R162). -/
def isCodeword (e : Nat) (block : List Byte) : Prop := ∀ i < e, syndromeBySum block i = 0

/-- The number of positions below the length of `xs` at which two blocks differ. -/
def distance (xs ys : List Byte) : Nat :=
  ((List.range xs.length).filter fun j => xs.getD j 0 != ys.getD j 0).length

/-! ### Agreement of states -/

/-- Two states hold the same in every cell of every memory. -/
def State.sameCells (s t : State) : Prop := ∀ b i, s.cell b i = t.cell b i

/-- Two states agree on all that a command reads: the configuration registers and the memories (spec/70_reset_and_hazards.md R263). -/
def State.sameInputs (s t : State) : Prop :=
  s.rsN = t.rsN ∧ s.rsK = t.rsK ∧ s.imgW = t.imgW ∧ s.imgH = t.imgH ∧ s.sameCells t

/-- A command's completion with nothing but STATUS written (R111, R112). -/
def State.completedWith (s : State) (e : ErrorCode) : State :=
  { s with err := e, done := true, busy := false }

/-- The host writes the command word `w` to CMD (offset 0x0C). -/
def cmdWrite (w : Word) : Event := .write 0x00000C .w32 w

/-- The next event is a reset, with power kept or not (spec/70_reset_and_hazards.md R250). -/
def State.resetNext (s : State) : Prop := ∃ rest, s.agenda = .reset :: rest ∨ s.agenda = .powerOn :: rest

/-- The engine has the next turn: it is first on the agenda, or nothing is pending; `rest` is what is pending after. -/
def State.engineNext (s : State) (rest : List Event) : Prop :=
  s.agenda = .engine :: rest ∨ (s.agenda = [] ∧ rest = [])

end Sys2Proof.Machine
end

