-- ==== Sys2Proof/Certificates/Slice0/Obligations.lean ====
section
/-!
DEFINITION. The statements for the provers, from the numbered rules of spec/. Each docstring names the rules it formalises; a clause
that rests on a choice of the model says so and names the log entry.
-/

open Sys2Proof Sys2Proof.Machine

/-! ### Encoding -/

/-- Every word of spec/95_test_vectors.md V-ENC1 to V-ENC15, written out, decodes as R93 and R94 say (R93, R94). The names of the
rejections are the model's. -/
def Obligations.SpecWordsDecode : Prop :=
  decode 0x00000000 = .ok .nop ∧
  decode 0x00CA5301 = .ok (.gfadd 0x53 0xCA) ∧
  decode 0x00CA5302 = .ok (.gfmul 0x53 0xCA) ∧
  decode 0x00020103 = .ok (.gfdiv 0x01 0x02) ∧
  decode 0x00000204 = .ok (.gfinv 0x02) ∧
  decode 0x00001905 = .ok (.gfexp 25) ∧
  decode 0x0000FF06 = .ok (.gflog 0xFF) ∧
  decode 0x00000010 = .ok .rssyn ∧
  decode 0x00000011 = .ok .rsdec ∧
  decode 0x00000020 = .ok .binarize ∧
  decode 0x00000007 = .error (.unknownOpcode 0x07) ∧
  decode 0x0000000F = .error (.unknownOpcode 0x0F) ∧
  decode 0x00000012 = .error (.unknownOpcode 0x12) ∧
  decode 0x00000021 = .error (.unknownOpcode 0x21) ∧
  decode 0x000000FF = .error (.unknownOpcode 0xFF) ∧
  decode 0x01000000 = .error (.reservedBitsSet 0x01) ∧
  decode 0x01CA5302 = .error (.reservedBitsSet 0x01) ∧
  decode 0x80000020 = .error (.reservedBitsSet 0x80) ∧
  decode 0x00000100 = .error (.unusedOperandSet .z) ∧
  decode 0x00010011 = .error (.unusedOperandSet .z) ∧
  decode 0x00000120 = .error (.unusedOperandSet .z) ∧
  decode 0x00010204 = .error (.unusedOperandSet .u) ∧
  decode 0x00FF0005 = .error (.unusedOperandSet .u) ∧
  decode 0x00010006 = .error (.unusedOperandSet .u) ∧
  decode 0x00FFFF01 = .ok (.gfadd 0xFF 0xFF) ∧
  decode 0x00000001 = .ok (.gfadd 0 0) ∧
  decode 0x0000FF05 = .ok (.gfexp 0xFF)

/-- Decoding the word of a well-formed command gives the command back, with every operand byte at every value; so does
reading it as a row of the opcode table (R90, R92, R97). -/
def Obligations.DecodeInvertsEncode : Prop :=
  ∀ i : Instr, i.wellFormed = true →
    decode (encode i) = .ok i ∧ decodeTableWord 32 (encode i).toNat = some i

/-- A word that decodes is the word of the command it decodes to, which is well formed: each command has one word (R90, R91). -/
def Obligations.EncodeInvertsDecode : Prop :=
  ∀ (w : Word) (i : Instr), decode w = .ok i → encode i = w ∧ i.wellFormed = true

/-- A word decodes iff it selects a row of the table, to a command of that row's mnemonic, and no word selects two rows
(R93). -/
def Obligations.DecodeFollowsOpcodeTable : Prop :=
  ∀ w : Word,
    (∀ i, decode w = .ok i → ∃ row ∈ opcodeTable, w &&& row.mask = row.pattern ∧ row.mnemonic = i.mnemonic) ∧
    ((∃ row ∈ opcodeTable, w &&& row.mask = row.pattern) → ∃ i, decode w = .ok i) ∧
    (∀ row ∈ opcodeTable, ∀ row' ∈ opcodeTable,
      w &&& row.mask = row.pattern → w &&& row'.mask = row'.pattern → row = row')

/-! ### The life of a command -/

/-- When a command is running and the engine has the next turn, one step is the meaning of the command that the latched
word decodes to; the step itself only takes the turn off the agenda (R22, R40; the agenda is the model's, log entry 1). The same for a
command placed by `withFetchWord` (log entry 2). -/
def Obligations.StepRunsDecodedCommand : Prop :=
  (∀ (s : State) (i : Instr) (rest : List Event), s.busy = true → decode s.cmdl = .ok i → s.engineNext rest →
    step s = exec i (s.withAgenda rest)) ∧
  (∀ (s : State) (i : Instr), i.wellFormed = true →
    step (s.withFetchWord 32 (encode i).toNat) = exec i (s.accept (encode i)))

/-- A word that matches no row is accepted like any command and completes with IllegalCommand: of the registers only STATUS and
CMDL have changed, and no memory (R94). Nothing is said of the
model's own field `errBefore`. -/
def Obligations.IllegalWordCompletesWithError : Prop :=
  ErrorCode.illegalCommand.code = 0x80 ∧
  ∀ (s : State) (w : Word) (rest : List Event), s.busy = false → s.agenda = cmdWrite w :: .engine :: rest →
    (∀ row ∈ opcodeTable, w &&& row.mask ≠ row.pattern) →
    ∃ u t, step s = .next u ∧ u.busy = true ∧ u.cmdl = w ∧ step u = .next t ∧
      t = { s with
        agenda := rest, reply := .accepted, cmdl := w, err := .illegalCommand, done := true, busy := false
        errBefore := t.errBefore }

/-- Acceptance (R110): a write of a word to CMD while BUSY = 0 latches it, sets BUSY, clears DONE and ERR and changes nothing else; while
BUSY = 1 it is dropped and sets PERR; and no host access while BUSY = 1 changes what the running command reads. Nothing is said
of the model's own field `errBefore`. -/
def Obligations.CommandAcceptance : Prop :=
  (∀ (s : State) (w : Word) (rest : List Event), s.busy = false → s.agenda = cmdWrite w :: rest →
    ∃ t, step s = .next t ∧ t = { s with
      agenda := rest, reply := .accepted, cmdl := w, busy := true, done := false, err := .success
      errBefore := t.errBefore }) ∧
  (∀ (s : State) (w : Word) (rest : List Event), s.busy = true → s.agenda = cmdWrite w :: rest →
    step s = .next { s with agenda := rest, reply := .accepted, perr := true }) ∧
  (∀ (s : State) (off : Offset) (w : Width) (v : Word), s.busy = true →
    (s.memRead off w).sameInputs s ∧ (s.memWrite off w v).sameInputs s ∧
      (s.memRead off w).cmdl = s.cmdl ∧ (s.memWrite off w v).cmdl = s.cmdl)

/-- NOP (R113): its word, its completion with nothing but STATUS written, and STATUS = 0x00000002 after it if PERR was 0. -/
def Obligations.NopCompletes : Prop :=
  decode 0x00000000 = .ok .nop ∧ Instr.nop.format = .z ∧
  ∀ s : State,
    exec .nop s = .next { s with err := .success, done := true, busy := false } ∧
    (s.perr = false → { s with err := .success, done := true, busy := false }.statusWord = 0x00000002)

/-! ### GF(256) -/

/-- GFADD (R128): encoding, result (read at RESULT, zero-extended), corner cases and example; nothing but RESULT and STATUS changes. -/
def Obligations.GfaddResult : Prop :=
  (∀ w : Word, opField w = 0x01 → zField w = 0 → decode w = .ok (.gfadd (aField w) (bField w))) ∧
  (∀ (a b : Byte) (s : State), exec (.gfadd a b) s =
    .next { s with result := a ^^^ b, err := .success, done := true, busy := false }) ∧
  (∀ s : State, s.readReg 0x10 = s.result.setWidth 32) ∧
  (∀ a : Byte, gfAdd a a = 0 ∧ gfAdd a 0 = a ∧ gfAdd 0 a = a) ∧ gfAdd 0x53 0xCA = 0x99

/-- GFMUL (R129): encoding, and as result the product of the two bytes as polynomials reduced modulo 0x11D (the other definition
R125 gives); corner cases and example; nothing but RESULT and STATUS changes. -/
def Obligations.GfmulResult : Prop :=
  (∀ w : Word, opField w = 0x02 → zField w = 0 → decode w = .ok (.gfmul (aField w) (bField w))) ∧
  (∀ (a b : Byte) (s : State), exec (.gfmul a b) s =
    .next { s with result := carrylessProduct a b, err := .success, done := true, busy := false }) ∧
  (∀ a : Byte, gfMul a 0 = 0 ∧ gfMul 0 a = 0) ∧
  gfMul 0x02 0x80 = 0x1D ∧ gfMul 0xFF 0xFF = 0xE2 ∧ gfMul 0x53 0xCA = 0x8F

/-- GFDIV (R130): encoding; for a non-zero divisor the result is the quotient; for a zero divisor GfDomain with RESULT
unchanged, whatever the dividend; corner cases and examples. -/
def Obligations.GfdivResult : Prop :=
  ErrorCode.gfDomain.code = 0x82 ∧
  (∀ w : Word, opField w = 0x03 → zField w = 0 → decode w = .ok (.gfdiv (aField w) (bField w))) ∧
  (∀ (a b : Byte) (s : State), b ≠ 0 → ∃ q, carrylessProduct q b = a ∧ exec (.gfdiv a b) s =
    .next { s with result := q, err := .success, done := true, busy := false }) ∧
  (∀ (a : Byte) (s : State), exec (.gfdiv a 0) s = .next { s with err := .gfDomain, done := true, busy := false }) ∧
  (∀ b : Byte, b ≠ 0 → gfDiv 0 b = 0 ∧ gfDiv b b = 1) ∧ gfDiv 0x01 0x02 = 0x8E ∧ gfDiv 0xFF 0x03 = 0x55

/-- GFINV (R131): encoding; for a non-zero operand the result is its inverse; for zero GfDomain with RESULT unchanged; corner
case and example. -/
def Obligations.GfinvResult : Prop :=
  ErrorCode.gfDomain.code = 0x82 ∧
  (∀ w : Word, opField w = 0x04 → bField w = 0 → zField w = 0 → decode w = .ok (.gfinv (aField w))) ∧
  (∀ (a : Byte) (s : State), a ≠ 0 → ∃ v, carrylessProduct a v = 1 ∧ exec (.gfinv a) s =
    .next { s with result := v, err := .success, done := true, busy := false }) ∧
  (∀ s : State, exec (.gfinv 0) s = .next { s with err := .gfDomain, done := true, busy := false }) ∧
  gfInv 0x01 = 0x01 ∧ gfInv 0x02 = 0x8E

/-- GFEXP (R132): encoding, and as result the power of the generator: the byte 1 doubled `a` times in the field; corner cases
and example. -/
def Obligations.GfexpResult : Prop :=
  (∀ w : Word, opField w = 0x05 → bField w = 0 → zField w = 0 → decode w = .ok (.gfexp (aField w))) ∧
  (∀ (a : Byte) (s : State), exec (.gfexp a) s =
    .next { s with result := xtime^[a.toNat] 1, err := .success, done := true, busy := false }) ∧
  (∀ a : Byte, expTable a.toNat = gfExp a.toNat) ∧
  expTable 0 = 0x01 ∧ expTable 255 = 0x01 ∧ expTable 8 = 0x1D ∧ expTable 254 = 0x8E ∧ expTable 25 = 0x03

/-- GFLOG (R133): encoding; for a non-zero operand the result is the number of doublings, 0 to 254, that give it; for zero GfDomain
with RESULT unchanged; corner cases and example. -/
def Obligations.GflogResult : Prop :=
  ErrorCode.gfDomain.code = 0x82 ∧
  (∀ w : Word, opField w = 0x06 → bField w = 0 → zField w = 0 → decode w = .ok (.gflog (aField w))) ∧
  (∀ (a : Byte) (s : State), a ≠ 0 → ∃ l, l ≤ 254 ∧ xtime^[l] 1 = a ∧ exec (.gflog a) s =
    .next { s with result := BitVec.ofNat 8 l, err := .success, done := true, busy := false }) ∧
  (∀ s : State, exec (.gflog 0) s = .next { s with err := .gfDomain, done := true, busy := false }) ∧
  gfLog 0x01 = 0 ∧ gfLog 0xFF = 0xAF ∧ gfLog 0x03 = 25

/-- The printed antilog and log tables are what R123 and R124 say: built by doubling, every non-zero byte once, the
logarithm its place. -/
def Obligations.ExpLogTables : Prop :=
  (∀ v : Byte, (xtime v).toNat = if v.toNat < 0x80 then 2 * v.toNat else (2 * v.toNat % 256) ^^^ 0x1D) ∧
  expTable 0 = 0x01 ∧ (∀ i < 254, expTable (i + 1) = xtime (expTable i)) ∧ expTable 255 = 0x01 ∧
  (∀ i < 256, expTable i = fieldPower alpha i) ∧
  (∀ v : Byte, v ≠ 0 → gfLog v ≤ 254 ∧ expTable (gfLog v) = v ∧ ∀ i < 255, expTable i = v → i = gfLog v) ∧
  gfLog 1 = 0

/-- Multiplication (R125): the table form, its agreement with polynomial multiplication modulo P on all pairs, and the laws. -/
def Obligations.GfMultiplicationLaws : Prop :=
  (∀ a b : Byte, gfMul a b = if a = 0 ∨ b = 0 then 0 else expTable ((gfLog a + gfLog b) % 255)) ∧
  (∀ a b : Byte, gfMul a b = carrylessProduct a b) ∧
  (∀ a b : Byte, gfMul a b = gfMul b a) ∧
  (∀ a b c : Byte, gfMul (gfMul a b) c = gfMul a (gfMul b c)) ∧
  (∀ a b c : Byte, gfMul a (gfAdd b c) = gfAdd (gfMul a b) (gfMul a c)) ∧
  (∀ a : Byte, gfMul a 1 = a)

/-- The five laws of R134. -/
def Obligations.GfFieldLaws : Prop :=
  (∀ a b : Byte, a ≠ 0 → b ≠ 0 → gfMul (gfDiv a b) b = a) ∧
  (∀ a : Byte, gfAdd a a = 0) ∧
  (∀ a : Byte, a ≠ 0 → gfExp (gfLog a) = a) ∧ (∀ i : Nat, i ≤ 254 → gfLog (gfExp i) = i) ∧
  (∀ a b : Byte, gfMul a b = 0 ↔ a = 0 ∨ b = 0) ∧
  (∀ (a : Byte) (j : Nat), a ≠ 0 → gfExp (255 * j + gfLog a) = a)

/-! ### Polynomials -/

/-- Evaluation (R146): Horner's form is the sum of the terms; the value at 0 and at 1; the zero polynomial. -/
def Obligations.PolynomialEvaluation : Prop :=
  ∀ (p : Poly) (v : Byte),
    pEval p v = evalBySum p v ∧ pEval p 0 = pCoef p 0 ∧ pEval p 1 = fieldSum p ∧
      ((∀ i, pCoef p i = 0) → pEval p v = 0)

/-- Evaluation respects sums and products, and a non-zero polynomial has at most as many non-zero roots as its degree (R148,
R170). -/
def Obligations.EvaluationHomomorphismAndRootBound : Prop :=
  (∀ (p q : Poly) (v : Byte), pEval (pAdd p q) v = gfAdd (pEval p v) (pEval q v)) ∧
  (∀ (p q : Poly) (v : Byte), pEval (pMul p q) v = gfMul (pEval p v) (pEval q v)) ∧
  (∀ p : Poly, 0 ≤ pDeg p → ((chienRoots p).length : Int) ≤ pDeg p)

/-- Long division by a non-zero polynomial gives a quotient and a remainder of lower degree that make up the dividend, and
does nothing to a dividend of lower degree (R147). -/
def Obligations.LongDivision : Prop :=
  ∀ a b : Poly, 0 ≤ pDeg b →
    (∀ i, pCoef a i = pCoef (pAdd (pMul (pDivmod a b).1 b) (pDivmod a b).2) i) ∧
      pDeg (pDivmod a b).2 < pDeg b ∧ (pDeg a < pDeg b → pDivmod a b = ([], a))

/-! ### Reed–Solomon -/

/-- Euclid's algorithm ends with a remainder of degree below `tmax` that the multiplier gives modulo `x^E` (R167, R168); the multiplier is not the
zero polynomial and has degree at most `E - tmax` (R169); the bound of `E` passes is enough. -/
def Obligations.EuclidKeyEquation : Prop :=
  ∀ (e : Nat) (s : Poly), s.length ≤ e →
    pDeg (euclid e s).2 < (e / 2 : Nat) ∧
      0 ≤ pDeg (euclid e s).1 ∧ pDeg (euclid e s).1 ≤ (e - e / 2 : Nat) ∧
      ∀ i < e, pCoef (pMul (euclid e s).1 s) i = pCoef (euclid e s).2 i

/-- Chien search finds exactly the non-zero roots, each once, and Forney's denominator is never zero at one of them (R170, R173). -/
def Obligations.ChienRootsAndForneyDenominator : Prop :=
  ∀ sigma : Poly,
    (chienRoots sigma).Nodup ∧ (∀ beta, beta ∈ chienRoots sigma ↔ beta ≠ 0 ∧ pEval sigma beta = 0) ∧
      (∀ beta ∈ chienRoots sigma, forneyDen (chienRoots sigma) beta ≠ 0)

/-- The received polynomial and the syndromes (R161, R162): coefficient order, `S_i = R(ALPHA^i)` term by term, `S_0` the
exclusive or of the codewords. -/
def Obligations.SyndromesAreEvaluations : Prop :=
  ∀ (cws : List Byte) (e : Nat),
    (∀ i < cws.length, pCoef (receivedPoly cws) i = cws.getD (cws.length - 1 - i) 0) ∧
    (syndromes e cws).length = e ∧
    (∀ i < e, (syndromes e cws).getD i 0 = pEval (receivedPoly cws) (gfExp i) ∧
      (syndromes e cws).getD i 0 = syndromeBySum cws i) ∧
    (0 < e → (syndromes e cws).getD 0 0 = fieldSum cws)

/-- The block configuration (R160): when it is legal, the bounds that follow, and BadConfig with nothing else changed when it
is not. -/
def Obligations.BlockConfiguration : Prop :=
  ErrorCode.badConfig.code = 0x81 ∧
  ∀ s : State,
    (s.blockLegal = true ↔ 1 ≤ s.rsK.toNat ∧ s.rsK.toNat < s.rsN.toNat ∧ s.rsN.toNat ≤ 255) ∧
    (s.blockLegal = true → s.blockE = s.rsN.toNat - s.rsK.toNat ∧ 1 ≤ s.blockE ∧ s.blockE ≤ 254 ∧
      tmaxOf s.blockE = s.blockE / 2 ∧ tmaxOf s.blockE ≤ 127) ∧
    (s.blockLegal = false →
      exec .rssyn s = .next (s.completedWith .badConfig) ∧ exec .rsdec s = .next (s.completedWith .badConfig))

/-- RSSYN on a legal block (R163): the syndromes to SYN[0..E-1], SYNZ whether all are zero, NERR = 0, and nothing else of QRB
changed but STATUS; on any other block BadConfig, nothing but STATUS changed; its word; the example of the rule. -/
def Obligations.RssynCompletes : Prop :=
  decode 0x00000010 = .ok .rssyn ∧ Instr.rssyn.format = .z ∧
  (∀ s : State, s.blockLegal = false → exec .rssyn s = .next (s.completedWith .badConfig)) ∧
  (∀ s : State, s.blockLegal = true → ∃ t, exec .rssyn s = .next t ∧
    (∀ i < s.blockE, t.cell .syn i = syndromeBySum s.codewords i) ∧
    (∀ i, s.blockE ≤ i → t.cell .syn i = s.cell .syn i) ∧
    (t.synz = true ↔ ∀ i < s.blockE, syndromeBySum s.codewords i = 0) ∧
    t.readReg 0x1C = (if t.synz then 0x00000100 else 0x00000000) ∧
    t = { s with syn := t.syn, synz := t.synz, nerr := 0, err := .success, done := true, busy := false }) ∧
  (∀ s t : State, s.rsN = 5 → s.rsK = 3 → s.codewords = [0x0A, 0x14, 0x1E, 0x28, 0xB1] → exec .rssyn s = .next t →
    t.cell .syn 0 = 0x99 ∧ t.cell .syn 1 = 0x99 ∧ t.rsStatWord = 0)

/-- RSDEC on a block whose syndromes are all zero (R165): SYN[0..E-1] zero, SYNZ = 1, NERR = 0, CW not written, nothing else of QRB
changed but STATUS. -/
def Obligations.RsdecAcceptsCleanBlock : Prop :=
  ∀ s : State, s.blockLegal = true → isCodeword s.blockE s.codewords → ∃ t, exec .rsdec s = .next t ∧
    (∀ i < s.blockE, t.cell .syn i = 0) ∧ (∀ i, s.blockE ≤ i → t.cell .syn i = s.cell .syn i) ∧
    t = { s with syn := t.syn, synz := true, nerr := 0, err := .success, done := true, busy := false }

/-- What RSDEC writes, in the four outcomes of R177; SYN[E..] and CW[n..] are never touched. RS_STAT is read as its two fields. -/
def Obligations.RsdecOutcomes : Prop :=
  ErrorCode.success.code = 0x00 ∧ ErrorCode.badConfig.code = 0x81 ∧ ErrorCode.uncorrectableBlock.code = 0x06 ∧
  (∀ s : State, s.readReg 0x1C = (if s.synz then 0x00000100 else 0x00000000) + s.nerr.setWidth 32) ∧
  ∀ s : State, ∃ t, exec .rsdec s = .next t ∧
    ((s.blockLegal = false ∧ t = s.completedWith .badConfig) ∨
     (s.blockLegal = true ∧
      (∀ i < s.blockE, t.cell .syn i = syndromeBySum s.codewords i) ∧
      (∀ i, s.blockE ≤ i → t.cell .syn i = s.cell .syn i) ∧
      ((isCodeword s.blockE s.codewords ∧
        t = { s with syn := t.syn, synz := true, nerr := 0, err := .success, done := true, busy := false }) ∨
       (¬ isCodeword s.blockE s.codewords ∧
        1 ≤ t.nerr.toNat ∧ t.nerr.toNat ≤ s.blockE / 2 ∧ distance s.codewords t.codewords = t.nerr.toNat ∧
        (∀ j, s.blockN ≤ j → t.cell .cw j = s.cell .cw j) ∧
        t = { s with
          cw := t.cw, syn := t.syn, synz := false, nerr := t.nerr, err := .success, done := true, busy := false }) ∨
       (¬ isCodeword s.blockE s.codewords ∧
        t = { s with syn := t.syn, err := .uncorrectableBlock, done := true, busy := false }))))

/-- What RSDEC guarantees for every input with a legal configuration (R179): UncorrectableBlock with CW unchanged, or success with a
codeword that differs from the input in exactly NERR positions, at most `tmax`. -/
def Obligations.RsdecSuccessLeavesCodeword : Prop :=
  ∀ s : State, s.blockLegal = true → ∃ t, exec .rsdec s = .next t ∧
    ((t.err = .uncorrectableBlock ∧ ∀ j, t.cell .cw j = s.cell .cw j) ∨
     (t.err = .success ∧ isCodeword s.blockE t.codewords ∧
      distance s.codewords t.codewords = t.nerr.toNat ∧ t.nerr.toNat ≤ s.blockE / 2))

/-- The correction bound (R178): a block that differs from a codeword in at most `tmax` positions is decoded to it, and NERR says in
how many positions it differed; with none, the block is accepted as clean. -/
def Obligations.RsdecCorrectsUpToTmax : Prop :=
  ∀ (s : State) (c : List Byte), s.blockLegal = true → c.length = s.blockN → isCodeword s.blockE c →
    distance c s.codewords ≤ s.blockE / 2 →
    ∃ t, exec .rsdec s = .next t ∧ t.err = .success ∧ t.codewords = c ∧
      t.nerr.toNat = distance c s.codewords ∧ t.synz = decide (distance c s.codewords = 0)

/-- Beyond the bound (R179, spec/90_conflicts.md C4): some block with `tmax + 1` errors is decoded, with success, to another codeword. -/
def Obligations.RsdecCanMiscorrect : Prop :=
  ∃ (s t : State) (c : List Byte), s.blockLegal = true ∧ c.length = s.blockN ∧ isCodeword s.blockE c ∧
    distance c s.codewords = s.blockE / 2 + 1 ∧ exec .rsdec s = .next t ∧ t.err = .success ∧
    isCodeword s.blockE t.codewords ∧ t.codewords ≠ c

/-- RSDEC issued again (R263): after a success it finds a clean block and leaves CW alone; after UncorrectableBlock it fails again
and leaves the same state behind. -/
def Obligations.RsdecTwice : Prop :=
  ∀ s t u : State, exec .rsdec s = .next t → exec .rsdec t = .next u →
    (t.err = .success → u.err = .success ∧ u.synz = true ∧ u.nerr = 0 ∧ ∀ j, u.cell .cw j = t.cell .cw j) ∧
    (t.err = .uncorrectableBlock → u.err = .uncorrectableBlock ∧ u.sameCells t ∧ u.synz = t.synz ∧ u.nerr = t.nerr)

/-! ### Binarizer -/

/-- The legality of the image (R191): a side below 16 is BinarizationFailed, else too many pixels is BadConfig, nothing but STATUS
written; a legal image is at least one block wide and high. -/
def Obligations.BinarizeRefusals : Prop :=
  ErrorCode.binarizationFailed.code = 0x01 ∧ ErrorCode.badConfig.code = 0x81 ∧
  ∀ s : State,
    (s.imgW.toNat < 16 ∨ s.imgH.toNat < 16 → exec .binarize s = .next (s.completedWith .binarizationFailed)) ∧
    (16 ≤ s.imgW.toNat → 16 ≤ s.imgH.toNat → 4194304 < s.imgW.toNat * s.imgH.toNat →
      exec .binarize s = .next (s.completedWith .badConfig)) ∧
    (16 ≤ s.imgW.toNat → 16 ≤ s.imgH.toNat →
      blockSize s.imgW.toNat s.imgH.toNat ≤ s.imgW.toNat ∧ blockSize s.imgW.toNat s.imgH.toNat ≤ s.imgH.toNat)

/-- BINARIZE on a legal image (R190, R192, R193, R198 to R204) completes: for the raw thresholds that R196 and R197 define (there is one such
function on the grid, RawThresholdsUnique), every pixel's bit is its luma compared with the smoothed threshold of its block; no other bit of BIN changes;
BIN_BLKSZ and BIN_GRID tell the geometry; nothing else of QRB changes but STATUS. -/
def Obligations.BinarizeComputesThresholdedImage : Prop :=
  ∀ s : State,
    let w := s.imgW.toNat
    let h := s.imgH.toNat
    let size := max (min w h / 40) 16
    let nbx := (w + size - 1) / size
    let nby := (h + size - 1) / size
    16 ≤ w → 16 ≤ h → w * h ≤ 4194304 →
    ∃ t, exec .binarize s = .next t ∧
      (∀ raw, ObeysRawRules s.lumaAt w h raw → ∀ x y, x < w → y < h → t.binBit (y * w + x) =
        decide (s.lumaAt (y * w + x) ≤
          smoothOf raw nbx nby (if w - size ≤ x then nbx - 1 else x / size) (if h - size ≤ y then nby - 1 else y / size))) ∧
      (∀ p, w * h ≤ p → t.binBit p = s.binBit p) ∧
      t.readReg 0x28 = BitVec.ofNat 32 size ∧ t.readReg 0x2C = BitVec.ofNat 32 (nbx + 65536 * nby) ∧
      t = { s with
        bin := t.bin, blkSz := BitVec.ofNat 13 size, gridX := BitVec.ofNat 16 nbx, gridY := BitVec.ofNat 16 nby,
        err := .success, done := true, busy := false }

/-- The raw thresholds computed block by block in row-major order are the one function that obeys R196 and R197 at every
block (R198). -/
def Obligations.RawThresholdsUnique : Prop :=
  ∀ (lum : Nat → Nat) (w h : Nat),
    ObeysRawRules lum w h (gridAt (rawGrid lum w h)) ∧
    ∀ raw, ObeysRawRules lum w h raw → ∀ bx by', bx < blocksAlong w (blockSize w h) →
      by' < blocksAlong h (blockSize w h) → raw bx by' = gridAt (rawGrid lum w h) bx by'

/-- The minimum and maximum of a block are those of the luma over its S × S pixels, all inside the image (R194, R195). -/
def Obligations.BlockRangeIsMinMax : Prop :=
  ∀ (lum : Nat → Nat) (w h bx by' : Nat), (∀ p, lum p ≤ 255) → 16 ≤ w → 16 ≤ h →
    let size := blockSize w h
    let ox := min (bx * size) (w - size)
    let oy := min (by' * size) (h - size)
    let r := blockRange lum w h size bx by'
    ox + size ≤ w ∧ oy + size ≤ h ∧
    (∀ x y, ox ≤ x → x < ox + size → oy ≤ y → y < oy + size → r.mn ≤ lum (y * w + x) ∧ lum (y * w + x) ≤ r.mx) ∧
    (∃ x y, ox ≤ x ∧ x < ox + size ∧ oy ≤ y ∧ y < oy + size ∧ lum (y * w + x) = r.mn) ∧
    (∃ x y, ox ≤ x ∧ x < ox + size ∧ oy ≤ y ∧ y < oy + size ∧ lum (y * w + x) = r.mx)

/-- Thresholds, raw and smoothed, are bytes (R196, R197, R199), and in the high-contrast branch the second bias is never the larger and the
cap acts exactly from a midpoint of 233 on (R196). -/
def Obligations.ThresholdsAreBytes : Prop :=
  (∀ (lum : Nat → Nat) (w h bx by' : Nat), (∀ p, lum p ≤ 255) →
    gridAt (rawGrid lum w h) bx by' ≤ 255 ∧ gridAt (smoothGrid lum w h) bx by' ≤ 255) ∧
  (∀ mn mx : Nat, mn ≤ mx → mx ≤ 255 →
    let mid := (mn + mx) / 2
    mid * 11 / 10 ≤ mid + (mn + mx) / 4 ∧ highThreshold ⟨mn, mx⟩ = min 255 (mid * 11 / 10) ∧
      (highThreshold ⟨mn, mx⟩ ≠ mid * 11 / 10 ↔ 233 ≤ mid))

/-- The block of a coordinate is a block of the grid, lies inside the image and covers the coordinate (R193, R194, R200). -/
def Obligations.PixelLiesInItsBlock : Prop :=
  ∀ v d size : Nat, 1 ≤ size → size ≤ d → v < d →
    blockOf v d size < blocksAlong d size ∧
      blockOrigin (blockOf v d size) size d ≤ v ∧ v < blockOrigin (blockOf v d size) size d + size ∧
      blockOrigin (blockOf v d size) size d + size ≤ d

/-- An image of black (0) and white (255) pixels only, in any arrangement, binarizes to itself; the straight boundary of R206
is the case where each half is one value (R206). -/
def Obligations.BlackAndWhiteImageBinarizesExactly : Prop :=
  ∀ s : State, 16 ≤ s.imgW.toNat → 16 ≤ s.imgH.toNat → s.imgW.toNat * s.imgH.toNat ≤ 4194304 →
    (∀ p < s.imgW.toNat * s.imgH.toNat, s.lumaAt p = 0 ∨ s.lumaAt p = 255) →
    ∃ t, exec .binarize s = .next t ∧ t.err = .success ∧
      ∀ p < s.imgW.toNat * s.imgH.toNat, t.binBit p = decide (s.lumaAt p = 0)

/-- An image of one value comes out white, unless the value is 0, when it comes out black (R205 (1)). -/
def Obligations.UniformImage : Prop :=
  ∀ (s : State) (v : Nat), 16 ≤ s.imgW.toNat → 16 ≤ s.imgH.toNat → s.imgW.toNat * s.imgH.toNat ≤ 4194304 →
    (∀ p < s.imgW.toNat * s.imgH.toNat, s.lumaAt p = v) →
    ∃ t, exec .binarize s = .next t ∧ t.err = .success ∧
      ∀ p < s.imgW.toNat * s.imgH.toNat, t.binBit p = decide (v = 0)

/-- BINARIZE issued again gives the same result, and LUMA is never written (R204, R263). -/
def Obligations.BinarizeTwice : Prop :=
  ∀ s t u : State, exec .binarize s = .next t → exec .binarize t = .next u →
    t.luma = s.luma ∧ u.err = t.err ∧ u.sameCells t ∧ u.blkSz = t.blkSz ∧ u.gridX = t.gridX ∧ u.gridY = t.gridY

/-! ### The bus -/

/-- Which accesses are accepted (R60, R65 to R67): aligned ones, 32 bits wide to a register or any width to a memory; every other
gets a bus error and changes nothing of QRB, not even PERR. The data of a narrow read have zeros above its width: the model's choice, log
entry 17. -/
def Obligations.RefusedAccessesChangeNothing : Prop :=
  ∀ (s : State) (off : Offset) (w : Width) (v : Word),
    let a := off.toNat
    let good := a % w.bytes = 0 ∧
      ((a < 0x100 ∧ w = .w32) ∨ (0x400 ≤ a ∧ a < 0x600) ∨ (0x400000 ≤ a ∧ a < 0x880000))
    (¬ good → s.memRead off w = { s with reply := .busError } ∧ s.memWrite off w v = { s with reply := .busError }) ∧
    (good → (∃ d : Word, (s.memRead off w).reply = .data d ∧ d.toNat < 2 ^ (8 * w.bytes)) ∧
      (s.memWrite off w v).reply = .accepted)

/-- Host accesses while BUSY = 1 (R73): registers read normally; a memory read is accepted and changes nothing of QRB (its value is
unspecified: the model draws it, log entry 7); an accepted write changes nothing but PERR. Until completion a read of RESULT, RS_STAT, BIN_BLKSZ, BIN_GRID
and of STATUS.ERR gives the value from before the command: acceptance changes nothing that a read of one of the five gives, and neither does a step that leaves the
command running (R256; that it is so of ERR although acceptance writes 0x00 to the register is DEDUCED, log entry 23). -/
def Obligations.BusyHostAccess : Prop :=
  (∀ (s : State) (off : Offset) (w : Width) (v : Word), s.busy = true → accessOk off.toNat w = true →
    s.memWrite off w v = { s with perr := true, reply := .accepted } ∧
    (off.toNat < 0x100 → s.memRead off w = { s with reply := .data (s.readReg off.toNat) }) ∧
    (0x100 ≤ off.toNat → ∃ d, s.memRead off w = { s with reply := .data d, draws := s.draws + 1 })) ∧
  (∀ s t : State, s.busy = true → step s = .next t → t.busy = true →
    t.errRead = s.errRead ∧ ∀ r ∈ [0x10, 0x1C, 0x28, 0x2C], t.readReg r = s.readReg r) ∧
  (∀ (s : State) (w : Word), s.busy = false →
    (s.accept w).errRead = s.err ∧ s.errRead = s.err ∧
      ∀ r ∈ [0x10, 0x1C, 0x28, 0x2C], (s.accept w).readReg r = s.readReg r)

/-- No read has a side effect, and reading again gives the same while QRB is idle; writing the same again changes nothing more, but for CMD
(R68). -/
def Obligations.ReadsAndWritesRepeat : Prop :=
  (∀ (s : State) (off : Offset) (w : Width), ∃ r d, s.memRead off w = { s with reply := r, draws := d }) ∧
  (∀ (s : State) (off : Offset) (w : Width), s.busy = false →
    ((s.memRead off w).memRead off w).reply = (s.memRead off w).reply) ∧
  (∀ (s : State) (off : Offset) (w : Width) (v : Word), off.toNat ≠ 0x0C →
    ((s.memWrite off w v).memWrite off w v).sameCells (s.memWrite off w v) ∧
    (s.memWrite off w v).memWrite off w v =
      { s.memWrite off w v with
        cw := ((s.memWrite off w v).memWrite off w v).cw
        luma := ((s.memWrite off w v).memWrite off w v).luma
        bin := ((s.memWrite off w v).memWrite off w v).bin })

/-- Little-endian accesses of every width to the memories (R61, R70): which byte of the data is which cell, on reads and on writes, and
that a write leaves every other cell, memory and register alone. SYN takes no host write (R69). -/
def Obligations.LittleEndianAccess : Prop :=
  ∀ (s : State) (b : Bank) (i : Nat) (off : Offset) (w : Width) (v : Word), s.busy = false →
    off.toNat = b.base + i → i + w.bytes ≤ b.size → off.toNat % w.bytes = 0 →
    (∃ d : Word, s.memRead off w = { s with reply := .data d } ∧
      ∀ k < w.bytes, d.extractLsb' (8 * k) 8 = s.cell b (i + k)) ∧
    (b ≠ .syn →
      (∀ k < w.bytes, (s.memWrite off w v).cell b (i + k) = v.extractLsb' (8 * k) 8) ∧
      (∀ b' j, ¬ (b' = b ∧ i ≤ j ∧ j < i + w.bytes) → (s.memWrite off w v).cell b' j = s.cell b' j) ∧
      s.memWrite off w v = { s with
        cw := (s.memWrite off w v).cw, luma := (s.memWrite off w v).luma, bin := (s.memWrite off w v).bin,
        reply := .accepted })

/-- Pixel `32j + i` is bit `i` of the 32-bit word at BIN byte offset `4j`, and pixel `p` is bit `p mod 8` of byte `p div 8` (R62). -/
def Obligations.BinPixelLayout : Prop :=
  ∀ (s : State) (j i : Nat), i < 32 →
    (s.readCells .bin (4 * j) 4).getLsbD i = s.binBit (32 * j + i) ∧
      s.binBit (32 * j + i) = (s.cell .bin ((32 * j + i) / 8)).getLsbD ((32 * j + i) % 8)

/-- Writes to registers with reserved bits (R44): only the named fields take bits, the register reads back with the others 0, and no
other register or memory changes; STATUS reads with its reserved bits 0 whatever is written. Also, in every state, running or idle, what a read of each
register returns: ID its constant, CMD the latch, STATUS its four fields at their bits (ERR while BUSY = 1 as `errRead` gives it, DEDUCED: log entry 23), each other register its fields (the layouts of R23 to R34). -/
def Obligations.RegisterReadBack : Prop :=
  (∀ s : State,
    s.memRead 0x00 .w32 = { s with reply := .data 0x51524231 } ∧
    s.memRead 0x0C .w32 = { s with reply := .data s.cmdl } ∧
    (∃ d : Word, s.memRead 0x08 .w32 = { s with reply := .data d } ∧
      d.getLsbD 0 = s.busy ∧ d.getLsbD 1 = s.done ∧ d.getLsbD 2 = s.perr ∧ d.extractLsb' 8 8 = s.errRead.code ∧
      d &&& 0xFFFF00F8 = 0 ∧ s.errRead = (if s.busy then s.errBefore else s.err)) ∧
    s.memRead 0x04 .w32 = { s with reply := .data (if s.ie then 1 else 0) } ∧
    s.memRead 0x10 .w32 = { s with reply := .data (s.result.setWidth 32) } ∧
    s.memRead 0x14 .w32 = { s with reply := .data (s.rsN.setWidth 32) } ∧
    s.memRead 0x18 .w32 = { s with reply := .data (s.rsK.setWidth 32) } ∧
    s.memRead 0x1C .w32 =
      { s with reply := .data ((if s.synz then 0x00000100 else 0x00000000) + s.nerr.setWidth 32) } ∧
    s.memRead 0x20 .w32 = { s with reply := .data (s.imgW.setWidth 32) } ∧
    s.memRead 0x24 .w32 = { s with reply := .data (s.imgH.setWidth 32) } ∧
    s.memRead 0x28 .w32 = { s with reply := .data (s.blkSz.setWidth 32) } ∧
    s.memRead 0x2C .w32 = { s with reply := .data (BitVec.ofNat 32 (s.gridX.toNat + 65536 * s.gridY.toNat)) }) ∧
  ∀ (s : State) (v : Word), s.busy = false →
    (s.memWrite 0x04 .w32 v = { s with ie := v.getLsbD 0, reply := .accepted } ∧
      (s.memWrite 0x04 .w32 v).readReg 0x04 = v &&& 0x00000001) ∧
    (s.memWrite 0x14 .w32 v = { s with rsN := v.setWidth 8, reply := .accepted } ∧
      (s.memWrite 0x14 .w32 v).readReg 0x14 = v &&& 0x000000FF) ∧
    (s.memWrite 0x18 .w32 v = { s with rsK := v.setWidth 8, reply := .accepted } ∧
      (s.memWrite 0x18 .w32 v).readReg 0x18 = v &&& 0x000000FF) ∧
    (s.memWrite 0x20 .w32 v = { s with imgW := v.setWidth 13, reply := .accepted } ∧
      (s.memWrite 0x20 .w32 v).readReg 0x20 = v &&& 0x00001FFF) ∧
    (s.memWrite 0x24 .w32 v = { s with imgH := v.setWidth 13, reply := .accepted } ∧
      (s.memWrite 0x24 .w32 v).readReg 0x24 = v &&& 0x00001FFF) ∧
    (s.memWrite 0x08 .w32 v).readReg 0x08 &&& 0xFFFF00F8 = 0

/-- Writes to read-only places while BUSY = 0 are accepted and ignored (R69), and a write to STATUS only clears DONE and PERR where
the word has a 1 (R25, R69). -/
def Obligations.ReadOnlyPlacesIgnoreWrites : Prop :=
  ∀ (s : State) (off : Offset) (w : Width) (v : Word), s.busy = false →
    (off.toNat ∈ [0x00, 0x10, 0x1C, 0x28, 0x2C] ∨ (0x30 ≤ off.toNat ∧ off.toNat < 0x100 ∧ off.toNat % 4 = 0) →
      s.memWrite off .w32 v = { s with reply := .accepted }) ∧
    (0x500 ≤ off.toNat → off.toNat < 0x600 → off.toNat % w.bytes = 0 →
      s.memWrite off w v = { s with reply := .accepted }) ∧
    s.memWrite 0x08 .w32 v =
      { s with done := s.done && !v.getLsbD 1, perr := s.perr && !v.getLsbD 2, reply := .accepted }

/-- Reserved registers and the gap after them (R35): a 32-bit read of 0x30 to 0xFC gives 0, a write is ignored while idle and sets PERR while
BUSY = 1; 0x100 to 0x3FF answers every access with a bus error. -/
def Obligations.ReservedRegisters : Prop :=
  ∀ (s : State) (off : Offset) (v : Word),
    (off.toNat % 4 = 0 → 0x30 ≤ off.toNat → off.toNat < 0x100 →
      s.memRead off .w32 = { s with reply := .data 0 } ∧
      (s.busy = false → s.memWrite off .w32 v = { s with reply := .accepted }) ∧
      (s.busy = true → s.memWrite off .w32 v = { s with perr := true, reply := .accepted })) ∧
    (∀ w, 0x100 ≤ off.toNat → off.toNat < 0x400 →
      s.memRead off w = { s with reply := .busError } ∧ s.memWrite off w v = { s with reply := .busError })

/-! ### Interrupt and errors -/

/-- The interrupt line (R41, R111, R112, R229, R230): it is DONE and IE; after every completion, of a command or of an illegal word, it is IE; acceptance, clearing DONE and clearing
IE take it low, and so does a reset; setting IE while DONE = 1 raises it. -/
def Obligations.InterruptLine : Prop :=
  (∀ s : State, s.irq = (s.done && s.ie)) ∧
  (∀ (i : Instr) (s t : State), exec i s = .next t → t.irq = s.ie) ∧
  (∀ s : State, s.busy = true → ∃ t, engineTurn s = .next t ∧ t.irq = s.ie) ∧
  (∀ (s : State) (v : Word), s.busy = false →
    (s.memWrite 0x0C .w32 v).irq = false ∧
    (v.getLsbD 1 = true → (s.memWrite 0x08 .w32 v).irq = false) ∧
    (v.getLsbD 0 = false → (s.memWrite 0x04 .w32 v).irq = false) ∧
    (v.getLsbD 0 = true → (s.memWrite 0x04 .w32 v).irq = s.done)) ∧
  (∀ s : State, s.resetKeepingPower.irq = false ∧ s.powerOn.irq = false)

/-- Which commands can complete with which code, exhaustively (R222). -/
def Obligations.ErrorsPerCommand : Prop :=
  (∀ (i : Instr) (s t : State), exec i s = .next t →
    match i with
    | .nop | .gfadd _ _ | .gfmul _ _ | .gfexp _ => t.err = .success
    | .gfdiv _ _ | .gfinv _ | .gflog _ => t.err = .success ∨ t.err = .gfDomain
    | .rssyn => t.err = .success ∨ t.err = .badConfig
    | .rsdec => t.err = .success ∨ t.err = .badConfig ∨ t.err = .uncorrectableBlock
    | .binarize => t.err = .success ∨ t.err = .binarizationFailed ∨ t.err = .badConfig) ∧
  (∀ (s t : State) (d : DecodeError), s.busy = true → decode s.cmdl = .error d → engineTurn s = .next t →
    t.err = .illegalCommand)

/-- Result locations are overwritten only by the commands that own them, and only when those succeed (SYN: when they pass their
configuration test); no command writes LUMA, a configuration register, IE, PERR or CMDL (R257, and the frame of every command). -/
def Obligations.ResultsBelongToTheirCommands : Prop :=
  ∀ (i : Instr) (s t : State), exec i s = .next t →
    (t.result ≠ s.result → t.err = .success ∧
      ((∃ a b, i = .gfadd a b ∨ i = .gfmul a b ∨ i = .gfdiv a b) ∨ (∃ a, i = .gfinv a ∨ i = .gfexp a ∨ i = .gflog a))) ∧
    (t.nerr ≠ s.nerr ∨ t.synz ≠ s.synz → t.err = .success ∧ (i = .rssyn ∨ i = .rsdec)) ∧
    ((∃ j, t.cell .syn j ≠ s.cell .syn j) → t.err ≠ .badConfig ∧ (i = .rssyn ∨ i = .rsdec)) ∧
    ((∃ j, t.cell .cw j ≠ s.cell .cw j) → t.err = .success ∧ i = .rsdec) ∧
    ((∃ j, t.cell .bin j ≠ s.cell .bin j) ∨ t.blkSz ≠ s.blkSz ∨ t.gridX ≠ s.gridX ∨ t.gridY ≠ s.gridY →
      t.err = .success ∧ i = .binarize) ∧
    t.luma = s.luma ∧ t.rsN = s.rsN ∧ t.rsK = s.rsK ∧ t.imgW = s.imgW ∧ t.imgH = s.imgH ∧ t.ie = s.ie ∧
      t.perr = s.perr ∧ t.errBefore = s.errBefore ∧ t.cmdl = s.cmdl ∧ t.agenda = s.agenda ∧ t.reply = s.reply ∧ t.draws = s.draws ∧
      t.done = true ∧ t.busy = false

/-- A command's result is a function of the configuration registers and the memories, and of nothing else (R263): from two states that agree
on those, the code and the memories after it agree, and each result register is written alike or left alone in both. -/
def Obligations.ResultDependsOnInputsOnly : Prop :=
  ∀ (i : Instr) (s s' t t' : State), s.sameInputs s' → exec i s = .next t → exec i s' = .next t' →
    t.err = t'.err ∧ t.sameInputs t' ∧
    (t.result = t'.result ∨ (t.result = s.result ∧ t'.result = s'.result)) ∧
    ((t.nerr = t'.nerr ∧ t.synz = t'.synz) ∨
      (t.nerr = s.nerr ∧ t.synz = s.synz ∧ t'.nerr = s'.nerr ∧ t'.synz = s'.synz)) ∧
    ((t.blkSz = t'.blkSz ∧ t.gridX = t'.gridX ∧ t.gridY = t'.gridY) ∨
      (t.blkSz = s.blkSz ∧ t.gridX = s.gridX ∧ t.gridY = s.gridY ∧
        t'.blkSz = s'.blkSz ∧ t'.gridX = s'.gridX ∧ t'.gridY = s'.gridY))

/-! ### Reset -/

/-- The registers after reset, as the host reads them, and the interrupt line (R42, R251), and what the three memory commands do with these registers.
The model's own fields and the form of the memories are the model's choices: nothing is pending (log entry 1), no access was answered (log entry 3), the next
draw is number 1 (log entry 8), and no memory lists a written cell (log entries 4 and 5). -/
def Obligations.ResetValues : Prop :=
  State.reset.readReg 0x00 = 0x51524231 ∧
  (∀ off : Nat, off < 0x100 → off % 4 = 0 → off ≠ 0 → State.reset.readReg off = 0) ∧
  State.reset.irq = false ∧ State.reset.busy = false ∧
  State.reset.agenda = [] ∧ State.reset.reply = .none ∧ State.reset.draws = 1 ∧
  (∀ b, State.reset.mem b = ⟨0, []⟩) ∧
  exec .rssyn State.reset = .next (State.reset.completedWith .badConfig) ∧
  exec .rsdec State.reset = .next (State.reset.completedWith .badConfig) ∧
  exec .binarize State.reset = .next (State.reset.completedWith .binarizationFailed)

/-- Reset with power kept (R250, R252, R253): the registers are at their reset values whatever was running; an interrupted RSSYN leaves SYN, an RSDEC
CW and SYN, a BINARIZE BIN with fresh unspecified contents; every other memory keeps every cell. Power-on is the same with every memory unspecified.
That the fresh contents are the free contents number `draws` is the model's form of "unspecified" (log entry 6). -/
def Obligations.ResetAbandonsCommand : Prop :=
  (∀ (s : State) (rest : List Event), s.agenda = .reset :: rest →
    ∃ t, step s = .next t ∧
      t = { State.reset with
        cw := t.cw, syn := t.syn, luma := t.luma, bin := t.bin, agenda := rest, reply := s.reply, draws := s.draws + 1 } ∧
      ∀ (b : Bank) (j : Nat), t.cell b j =
        if s.busy = true ∧
            ((decode s.cmdl = .ok .rssyn ∧ b = .syn) ∨ (decode s.cmdl = .ok .rsdec ∧ (b = .cw ∨ b = .syn)) ∨
              (decode s.cmdl = .ok .binarize ∧ b = .bin))
        then Config.freeByte s.draws (b.base + j)
        else s.cell b j) ∧
  (∀ (s : State) (rest : List Event), s.agenda = .powerOn :: rest →
    ∃ t, step s = .next t ∧
      t = { State.reset with
        cw := t.cw, syn := t.syn, luma := t.luma, bin := t.bin, agenda := rest, reply := s.reply, draws := s.draws + 1 } ∧
      ∀ (b : Bank) (j : Nat), t.cell b j = Config.freeByte s.draws (b.base + j))

/-! ### The whole machine -/

/-- The invariant holds after reset (the numbers of the draws are the model's: log entry 8). -/
def Obligations.InvHoldsAtReset : Prop := State.reset.Inv

/-- Every step keeps the invariant: canonical memories, BUSY with DONE = 0 and ERR = 0, NERR at most 127 and 0 with SYNZ, legal block geometry
(R25, R30, R33, R34, R110, R193), fresh draws (the model's, log entry 8). -/
def Obligations.StepKeepsInv : Prop :=
  ∀ s t : State, s.Inv → step s = .next t → t.Inv

/-- No host action and no command can make the block stuck (spec/93_implementation_defined.md section 1): every state has a next
state, with one event fewer pending (the agenda is the model's, log entry 1). -/
def Obligations.EveryStateHasNext : Prop :=
  ∀ s : State, ∃ t, step s = .next t ∧ t.agenda = s.agenda.tail

/-- Progress (R261): the engine's turn completes a running command, whatever it is; and a running command has ended, completed or by a reset, after at
most one step more than there are events pending (the model's schedule, log entry 1). -/
def Obligations.RunningCommandCompletes : Prop :=
  (∀ (s : State) (rest : List Event), s.busy = true → s.engineNext rest →
    ∃ t, step s = .next t ∧ t.busy = false ∧ t.done = true ∧ t.agenda = rest) ∧
  (∀ s : State, s.busy = true → ∃ k, k ≤ s.agenda.length + 1 ∧ (stepsFrom k s).busy = false)

/-- What changes the status and control bits (R24, R25, R110 to R112, R230). PERR rises only at a host write while BUSY = 1 and falls only at a write of 1 to
it while idle or at a reset. BUSY rises only at a write to CMD while BUSY = 0 and falls only at the completion of the running command or at a reset. DONE rises
only at the completion of a running command and falls only at an acceptance, at a write of 1 to it while idle or at a reset. IE changes only at a write to CTRL
while idle or at a reset. -/
def Obligations.OnlyTheseEventsChangeFlags : Prop :=
  ∀ s t : State, step s = .next t →
    (s.perr = false → t.perr = true →
      s.busy = true ∧ ∃ off w v rest, s.agenda = .write off w v :: rest ∧ accessOk off.toNat w = true) ∧
    (s.perr = true → t.perr = false → s.resetNext ∨
      (s.busy = false ∧ ∃ v rest, s.agenda = .write 0x000008 .w32 v :: rest ∧ v.getLsbD 2 = true)) ∧
    (s.busy = false → t.busy = true → ∃ w rest, s.agenda = cmdWrite w :: rest ∧ t.cmdl = w) ∧
    (s.busy = true → t.busy = false → s.resetNext ∨ (t.done = true ∧ ∃ rest, s.engineNext rest)) ∧
    (s.done = false → t.done = true → s.busy = true ∧ t.busy = false ∧ ∃ rest, s.engineNext rest) ∧
    (s.done = true → t.done = false → s.resetNext ∨
      (s.busy = false ∧ ((∃ w rest, s.agenda = cmdWrite w :: rest ∧ t.busy = true) ∨
        ∃ v rest, s.agenda = .write 0x000008 .w32 v :: rest ∧ v.getLsbD 1 = true))) ∧
    (t.ie ≠ s.ie → s.resetNext ∨
      (s.busy = false ∧ ∃ v rest, s.agenda = .write 0x000004 .w32 v :: rest ∧ t.ie = v.getLsbD 0))

/-- The grayscale image changes only by a host write into LUMA while BUSY = 0, or by loss of power (R38, R204, R253). -/
def Obligations.OnlyHostWritesChangeLuma : Prop :=
  ∀ (s t : State) (p : Nat), step s = .next t → t.cell .luma p ≠ s.cell .luma p →
    ∃ rest, s.agenda = .powerOn :: rest ∨
      (s.busy = false ∧ ∃ off w v, s.agenda = .write off w v :: rest ∧
        0x400000 + p < off.toNat + w.bytes ∧ off.toNat ≤ 0x400000 + p)
end

