-- ==== Sys2Proof/Laws/State.lean ====
section
/-!
SUPPORT. One lemma per field per update of the state, so that no later proof unfolds a record update. The updates of one
memory come last, with the memories as a function of the bank.
-/

namespace Sys2Proof.Machine

/-! ### `State.accept` -/

@[simp] theorem State.accept_ie (v : Word) (s : State) : (s.accept v).ie = s.ie := rfl
@[simp] theorem State.accept_busy (v : Word) (s : State) : (s.accept v).busy = true := rfl
@[simp] theorem State.accept_done (v : Word) (s : State) : (s.accept v).done = false := rfl
@[simp] theorem State.accept_perr (v : Word) (s : State) : (s.accept v).perr = s.perr := rfl
@[simp] theorem State.accept_err (v : Word) (s : State) : (s.accept v).err = .success := rfl
@[simp] theorem State.accept_errBefore (v : Word) (s : State) : (s.accept v).errBefore = s.err := rfl
@[simp] theorem State.accept_cmdl (v : Word) (s : State) : (s.accept v).cmdl = v := rfl
@[simp] theorem State.accept_result (v : Word) (s : State) : (s.accept v).result = s.result := rfl
@[simp] theorem State.accept_rsN (v : Word) (s : State) : (s.accept v).rsN = s.rsN := rfl
@[simp] theorem State.accept_rsK (v : Word) (s : State) : (s.accept v).rsK = s.rsK := rfl
@[simp] theorem State.accept_nerr (v : Word) (s : State) : (s.accept v).nerr = s.nerr := rfl
@[simp] theorem State.accept_synz (v : Word) (s : State) : (s.accept v).synz = s.synz := rfl
@[simp] theorem State.accept_imgW (v : Word) (s : State) : (s.accept v).imgW = s.imgW := rfl
@[simp] theorem State.accept_imgH (v : Word) (s : State) : (s.accept v).imgH = s.imgH := rfl
@[simp] theorem State.accept_blkSz (v : Word) (s : State) : (s.accept v).blkSz = s.blkSz := rfl
@[simp] theorem State.accept_gridX (v : Word) (s : State) : (s.accept v).gridX = s.gridX := rfl
@[simp] theorem State.accept_gridY (v : Word) (s : State) : (s.accept v).gridY = s.gridY := rfl
@[simp] theorem State.accept_cw (v : Word) (s : State) : (s.accept v).cw = s.cw := rfl
@[simp] theorem State.accept_syn (v : Word) (s : State) : (s.accept v).syn = s.syn := rfl
@[simp] theorem State.accept_luma (v : Word) (s : State) : (s.accept v).luma = s.luma := rfl
@[simp] theorem State.accept_bin (v : Word) (s : State) : (s.accept v).bin = s.bin := rfl
@[simp] theorem State.accept_agenda (v : Word) (s : State) : (s.accept v).agenda = s.agenda := rfl
@[simp] theorem State.accept_reply (v : Word) (s : State) : (s.accept v).reply = s.reply := rfl
@[simp] theorem State.accept_draws (v : Word) (s : State) : (s.accept v).draws = s.draws := rfl

/-! ### `State.complete` -/

@[simp] theorem State.complete_ie (s : State) : (s.complete).ie = s.ie := rfl
@[simp] theorem State.complete_busy (s : State) : (s.complete).busy = false := rfl
@[simp] theorem State.complete_done (s : State) : (s.complete).done = true := rfl
@[simp] theorem State.complete_perr (s : State) : (s.complete).perr = s.perr := rfl
@[simp] theorem State.complete_err (s : State) : (s.complete).err = .success := rfl
@[simp] theorem State.complete_errBefore (s : State) : (s.complete).errBefore = s.errBefore := rfl
@[simp] theorem State.complete_cmdl (s : State) : (s.complete).cmdl = s.cmdl := rfl
@[simp] theorem State.complete_result (s : State) : (s.complete).result = s.result := rfl
@[simp] theorem State.complete_rsN (s : State) : (s.complete).rsN = s.rsN := rfl
@[simp] theorem State.complete_rsK (s : State) : (s.complete).rsK = s.rsK := rfl
@[simp] theorem State.complete_nerr (s : State) : (s.complete).nerr = s.nerr := rfl
@[simp] theorem State.complete_synz (s : State) : (s.complete).synz = s.synz := rfl
@[simp] theorem State.complete_imgW (s : State) : (s.complete).imgW = s.imgW := rfl
@[simp] theorem State.complete_imgH (s : State) : (s.complete).imgH = s.imgH := rfl
@[simp] theorem State.complete_blkSz (s : State) : (s.complete).blkSz = s.blkSz := rfl
@[simp] theorem State.complete_gridX (s : State) : (s.complete).gridX = s.gridX := rfl
@[simp] theorem State.complete_gridY (s : State) : (s.complete).gridY = s.gridY := rfl
@[simp] theorem State.complete_cw (s : State) : (s.complete).cw = s.cw := rfl
@[simp] theorem State.complete_syn (s : State) : (s.complete).syn = s.syn := rfl
@[simp] theorem State.complete_luma (s : State) : (s.complete).luma = s.luma := rfl
@[simp] theorem State.complete_bin (s : State) : (s.complete).bin = s.bin := rfl
@[simp] theorem State.complete_agenda (s : State) : (s.complete).agenda = s.agenda := rfl
@[simp] theorem State.complete_reply (s : State) : (s.complete).reply = s.reply := rfl
@[simp] theorem State.complete_draws (s : State) : (s.complete).draws = s.draws := rfl

/-! ### `State.raise` -/

@[simp] theorem State.raise_ie (e : ErrorCode) (s : State) : (s.raise e).ie = s.ie := rfl
@[simp] theorem State.raise_busy (e : ErrorCode) (s : State) : (s.raise e).busy = false := rfl
@[simp] theorem State.raise_done (e : ErrorCode) (s : State) : (s.raise e).done = true := rfl
@[simp] theorem State.raise_perr (e : ErrorCode) (s : State) : (s.raise e).perr = s.perr := rfl
@[simp] theorem State.raise_err (e : ErrorCode) (s : State) : (s.raise e).err = e := rfl
@[simp] theorem State.raise_errBefore (e : ErrorCode) (s : State) : (s.raise e).errBefore = s.errBefore := rfl
@[simp] theorem State.raise_cmdl (e : ErrorCode) (s : State) : (s.raise e).cmdl = s.cmdl := rfl
@[simp] theorem State.raise_result (e : ErrorCode) (s : State) : (s.raise e).result = s.result := rfl
@[simp] theorem State.raise_rsN (e : ErrorCode) (s : State) : (s.raise e).rsN = s.rsN := rfl
@[simp] theorem State.raise_rsK (e : ErrorCode) (s : State) : (s.raise e).rsK = s.rsK := rfl
@[simp] theorem State.raise_nerr (e : ErrorCode) (s : State) : (s.raise e).nerr = s.nerr := rfl
@[simp] theorem State.raise_synz (e : ErrorCode) (s : State) : (s.raise e).synz = s.synz := rfl
@[simp] theorem State.raise_imgW (e : ErrorCode) (s : State) : (s.raise e).imgW = s.imgW := rfl
@[simp] theorem State.raise_imgH (e : ErrorCode) (s : State) : (s.raise e).imgH = s.imgH := rfl
@[simp] theorem State.raise_blkSz (e : ErrorCode) (s : State) : (s.raise e).blkSz = s.blkSz := rfl
@[simp] theorem State.raise_gridX (e : ErrorCode) (s : State) : (s.raise e).gridX = s.gridX := rfl
@[simp] theorem State.raise_gridY (e : ErrorCode) (s : State) : (s.raise e).gridY = s.gridY := rfl
@[simp] theorem State.raise_cw (e : ErrorCode) (s : State) : (s.raise e).cw = s.cw := rfl
@[simp] theorem State.raise_syn (e : ErrorCode) (s : State) : (s.raise e).syn = s.syn := rfl
@[simp] theorem State.raise_luma (e : ErrorCode) (s : State) : (s.raise e).luma = s.luma := rfl
@[simp] theorem State.raise_bin (e : ErrorCode) (s : State) : (s.raise e).bin = s.bin := rfl
@[simp] theorem State.raise_agenda (e : ErrorCode) (s : State) : (s.raise e).agenda = s.agenda := rfl
@[simp] theorem State.raise_reply (e : ErrorCode) (s : State) : (s.raise e).reply = s.reply := rfl
@[simp] theorem State.raise_draws (e : ErrorCode) (s : State) : (s.raise e).draws = s.draws := rfl

/-! ### `State.setResult` -/

@[simp] theorem State.setResult_ie (v : Byte) (s : State) : (s.setResult v).ie = s.ie := rfl
@[simp] theorem State.setResult_busy (v : Byte) (s : State) : (s.setResult v).busy = s.busy := rfl
@[simp] theorem State.setResult_done (v : Byte) (s : State) : (s.setResult v).done = s.done := rfl
@[simp] theorem State.setResult_perr (v : Byte) (s : State) : (s.setResult v).perr = s.perr := rfl
@[simp] theorem State.setResult_err (v : Byte) (s : State) : (s.setResult v).err = s.err := rfl
@[simp] theorem State.setResult_errBefore (v : Byte) (s : State) : (s.setResult v).errBefore = s.errBefore := rfl
@[simp] theorem State.setResult_cmdl (v : Byte) (s : State) : (s.setResult v).cmdl = s.cmdl := rfl
@[simp] theorem State.setResult_result (v : Byte) (s : State) : (s.setResult v).result = v := rfl
@[simp] theorem State.setResult_rsN (v : Byte) (s : State) : (s.setResult v).rsN = s.rsN := rfl
@[simp] theorem State.setResult_rsK (v : Byte) (s : State) : (s.setResult v).rsK = s.rsK := rfl
@[simp] theorem State.setResult_nerr (v : Byte) (s : State) : (s.setResult v).nerr = s.nerr := rfl
@[simp] theorem State.setResult_synz (v : Byte) (s : State) : (s.setResult v).synz = s.synz := rfl
@[simp] theorem State.setResult_imgW (v : Byte) (s : State) : (s.setResult v).imgW = s.imgW := rfl
@[simp] theorem State.setResult_imgH (v : Byte) (s : State) : (s.setResult v).imgH = s.imgH := rfl
@[simp] theorem State.setResult_blkSz (v : Byte) (s : State) : (s.setResult v).blkSz = s.blkSz := rfl
@[simp] theorem State.setResult_gridX (v : Byte) (s : State) : (s.setResult v).gridX = s.gridX := rfl
@[simp] theorem State.setResult_gridY (v : Byte) (s : State) : (s.setResult v).gridY = s.gridY := rfl
@[simp] theorem State.setResult_cw (v : Byte) (s : State) : (s.setResult v).cw = s.cw := rfl
@[simp] theorem State.setResult_syn (v : Byte) (s : State) : (s.setResult v).syn = s.syn := rfl
@[simp] theorem State.setResult_luma (v : Byte) (s : State) : (s.setResult v).luma = s.luma := rfl
@[simp] theorem State.setResult_bin (v : Byte) (s : State) : (s.setResult v).bin = s.bin := rfl
@[simp] theorem State.setResult_agenda (v : Byte) (s : State) : (s.setResult v).agenda = s.agenda := rfl
@[simp] theorem State.setResult_reply (v : Byte) (s : State) : (s.setResult v).reply = s.reply := rfl
@[simp] theorem State.setResult_draws (v : Byte) (s : State) : (s.setResult v).draws = s.draws := rfl

/-! ### `State.completeGf` -/

@[simp] theorem State.completeGf_ie (v : Byte) (s : State) : (s.completeGf v).ie = s.ie := rfl
@[simp] theorem State.completeGf_busy (v : Byte) (s : State) : (s.completeGf v).busy = false := rfl
@[simp] theorem State.completeGf_done (v : Byte) (s : State) : (s.completeGf v).done = true := rfl
@[simp] theorem State.completeGf_perr (v : Byte) (s : State) : (s.completeGf v).perr = s.perr := rfl
@[simp] theorem State.completeGf_err (v : Byte) (s : State) : (s.completeGf v).err = .success := rfl
@[simp] theorem State.completeGf_errBefore (v : Byte) (s : State) : (s.completeGf v).errBefore = s.errBefore := rfl
@[simp] theorem State.completeGf_cmdl (v : Byte) (s : State) : (s.completeGf v).cmdl = s.cmdl := rfl
@[simp] theorem State.completeGf_result (v : Byte) (s : State) : (s.completeGf v).result = v := rfl
@[simp] theorem State.completeGf_rsN (v : Byte) (s : State) : (s.completeGf v).rsN = s.rsN := rfl
@[simp] theorem State.completeGf_rsK (v : Byte) (s : State) : (s.completeGf v).rsK = s.rsK := rfl
@[simp] theorem State.completeGf_nerr (v : Byte) (s : State) : (s.completeGf v).nerr = s.nerr := rfl
@[simp] theorem State.completeGf_synz (v : Byte) (s : State) : (s.completeGf v).synz = s.synz := rfl
@[simp] theorem State.completeGf_imgW (v : Byte) (s : State) : (s.completeGf v).imgW = s.imgW := rfl
@[simp] theorem State.completeGf_imgH (v : Byte) (s : State) : (s.completeGf v).imgH = s.imgH := rfl
@[simp] theorem State.completeGf_blkSz (v : Byte) (s : State) : (s.completeGf v).blkSz = s.blkSz := rfl
@[simp] theorem State.completeGf_gridX (v : Byte) (s : State) : (s.completeGf v).gridX = s.gridX := rfl
@[simp] theorem State.completeGf_gridY (v : Byte) (s : State) : (s.completeGf v).gridY = s.gridY := rfl
@[simp] theorem State.completeGf_cw (v : Byte) (s : State) : (s.completeGf v).cw = s.cw := rfl
@[simp] theorem State.completeGf_syn (v : Byte) (s : State) : (s.completeGf v).syn = s.syn := rfl
@[simp] theorem State.completeGf_luma (v : Byte) (s : State) : (s.completeGf v).luma = s.luma := rfl
@[simp] theorem State.completeGf_bin (v : Byte) (s : State) : (s.completeGf v).bin = s.bin := rfl
@[simp] theorem State.completeGf_agenda (v : Byte) (s : State) : (s.completeGf v).agenda = s.agenda := rfl
@[simp] theorem State.completeGf_reply (v : Byte) (s : State) : (s.completeGf v).reply = s.reply := rfl
@[simp] theorem State.completeGf_draws (v : Byte) (s : State) : (s.completeGf v).draws = s.draws := rfl

/-! ### `State.setRsStat` -/

@[simp] theorem State.setRsStat_ie (z : Bool) (n : Nat) (s : State) : (s.setRsStat z n).ie = s.ie := rfl
@[simp] theorem State.setRsStat_busy (z : Bool) (n : Nat) (s : State) : (s.setRsStat z n).busy = s.busy := rfl
@[simp] theorem State.setRsStat_done (z : Bool) (n : Nat) (s : State) : (s.setRsStat z n).done = s.done := rfl
@[simp] theorem State.setRsStat_perr (z : Bool) (n : Nat) (s : State) : (s.setRsStat z n).perr = s.perr := rfl
@[simp] theorem State.setRsStat_err (z : Bool) (n : Nat) (s : State) : (s.setRsStat z n).err = s.err := rfl
@[simp] theorem State.setRsStat_errBefore (z : Bool) (n : Nat) (s : State) : (s.setRsStat z n).errBefore = s.errBefore := rfl
@[simp] theorem State.setRsStat_cmdl (z : Bool) (n : Nat) (s : State) : (s.setRsStat z n).cmdl = s.cmdl := rfl
@[simp] theorem State.setRsStat_result (z : Bool) (n : Nat) (s : State) : (s.setRsStat z n).result = s.result := rfl
@[simp] theorem State.setRsStat_rsN (z : Bool) (n : Nat) (s : State) : (s.setRsStat z n).rsN = s.rsN := rfl
@[simp] theorem State.setRsStat_rsK (z : Bool) (n : Nat) (s : State) : (s.setRsStat z n).rsK = s.rsK := rfl
@[simp] theorem State.setRsStat_nerr (z : Bool) (n : Nat) (s : State) : (s.setRsStat z n).nerr = BitVec.ofNat 8 n := rfl
@[simp] theorem State.setRsStat_synz (z : Bool) (n : Nat) (s : State) : (s.setRsStat z n).synz = z := rfl
@[simp] theorem State.setRsStat_imgW (z : Bool) (n : Nat) (s : State) : (s.setRsStat z n).imgW = s.imgW := rfl
@[simp] theorem State.setRsStat_imgH (z : Bool) (n : Nat) (s : State) : (s.setRsStat z n).imgH = s.imgH := rfl
@[simp] theorem State.setRsStat_blkSz (z : Bool) (n : Nat) (s : State) : (s.setRsStat z n).blkSz = s.blkSz := rfl
@[simp] theorem State.setRsStat_gridX (z : Bool) (n : Nat) (s : State) : (s.setRsStat z n).gridX = s.gridX := rfl
@[simp] theorem State.setRsStat_gridY (z : Bool) (n : Nat) (s : State) : (s.setRsStat z n).gridY = s.gridY := rfl
@[simp] theorem State.setRsStat_cw (z : Bool) (n : Nat) (s : State) : (s.setRsStat z n).cw = s.cw := rfl
@[simp] theorem State.setRsStat_syn (z : Bool) (n : Nat) (s : State) : (s.setRsStat z n).syn = s.syn := rfl
@[simp] theorem State.setRsStat_luma (z : Bool) (n : Nat) (s : State) : (s.setRsStat z n).luma = s.luma := rfl
@[simp] theorem State.setRsStat_bin (z : Bool) (n : Nat) (s : State) : (s.setRsStat z n).bin = s.bin := rfl
@[simp] theorem State.setRsStat_agenda (z : Bool) (n : Nat) (s : State) : (s.setRsStat z n).agenda = s.agenda := rfl
@[simp] theorem State.setRsStat_reply (z : Bool) (n : Nat) (s : State) : (s.setRsStat z n).reply = s.reply := rfl
@[simp] theorem State.setRsStat_draws (z : Bool) (n : Nat) (s : State) : (s.setRsStat z n).draws = s.draws := rfl

/-! ### `State.setBinGeometry` -/

@[simp] theorem State.setBinGeometry_ie (a b c : Nat) (s : State) : (s.setBinGeometry a b c).ie = s.ie := rfl
@[simp] theorem State.setBinGeometry_busy (a b c : Nat) (s : State) : (s.setBinGeometry a b c).busy = s.busy := rfl
@[simp] theorem State.setBinGeometry_done (a b c : Nat) (s : State) : (s.setBinGeometry a b c).done = s.done := rfl
@[simp] theorem State.setBinGeometry_perr (a b c : Nat) (s : State) : (s.setBinGeometry a b c).perr = s.perr := rfl
@[simp] theorem State.setBinGeometry_err (a b c : Nat) (s : State) : (s.setBinGeometry a b c).err = s.err := rfl
@[simp] theorem State.setBinGeometry_errBefore (a b c : Nat) (s : State) : (s.setBinGeometry a b c).errBefore = s.errBefore := rfl
@[simp] theorem State.setBinGeometry_cmdl (a b c : Nat) (s : State) : (s.setBinGeometry a b c).cmdl = s.cmdl := rfl
@[simp] theorem State.setBinGeometry_result (a b c : Nat) (s : State) : (s.setBinGeometry a b c).result = s.result := rfl
@[simp] theorem State.setBinGeometry_rsN (a b c : Nat) (s : State) : (s.setBinGeometry a b c).rsN = s.rsN := rfl
@[simp] theorem State.setBinGeometry_rsK (a b c : Nat) (s : State) : (s.setBinGeometry a b c).rsK = s.rsK := rfl
@[simp] theorem State.setBinGeometry_nerr (a b c : Nat) (s : State) : (s.setBinGeometry a b c).nerr = s.nerr := rfl
@[simp] theorem State.setBinGeometry_synz (a b c : Nat) (s : State) : (s.setBinGeometry a b c).synz = s.synz := rfl
@[simp] theorem State.setBinGeometry_imgW (a b c : Nat) (s : State) : (s.setBinGeometry a b c).imgW = s.imgW := rfl
@[simp] theorem State.setBinGeometry_imgH (a b c : Nat) (s : State) : (s.setBinGeometry a b c).imgH = s.imgH := rfl
@[simp] theorem State.setBinGeometry_blkSz (a b c : Nat) (s : State) : (s.setBinGeometry a b c).blkSz = BitVec.ofNat 13 a := rfl
@[simp] theorem State.setBinGeometry_gridX (a b c : Nat) (s : State) : (s.setBinGeometry a b c).gridX = BitVec.ofNat 16 b := rfl
@[simp] theorem State.setBinGeometry_gridY (a b c : Nat) (s : State) : (s.setBinGeometry a b c).gridY = BitVec.ofNat 16 c := rfl
@[simp] theorem State.setBinGeometry_cw (a b c : Nat) (s : State) : (s.setBinGeometry a b c).cw = s.cw := rfl
@[simp] theorem State.setBinGeometry_syn (a b c : Nat) (s : State) : (s.setBinGeometry a b c).syn = s.syn := rfl
@[simp] theorem State.setBinGeometry_luma (a b c : Nat) (s : State) : (s.setBinGeometry a b c).luma = s.luma := rfl
@[simp] theorem State.setBinGeometry_bin (a b c : Nat) (s : State) : (s.setBinGeometry a b c).bin = s.bin := rfl
@[simp] theorem State.setBinGeometry_agenda (a b c : Nat) (s : State) : (s.setBinGeometry a b c).agenda = s.agenda := rfl
@[simp] theorem State.setBinGeometry_reply (a b c : Nat) (s : State) : (s.setBinGeometry a b c).reply = s.reply := rfl
@[simp] theorem State.setBinGeometry_draws (a b c : Nat) (s : State) : (s.setBinGeometry a b c).draws = s.draws := rfl

/-! ### `State.withAgenda` -/

@[simp] theorem State.withAgenda_ie (evs : List Event) (s : State) : (s.withAgenda evs).ie = s.ie := rfl
@[simp] theorem State.withAgenda_busy (evs : List Event) (s : State) : (s.withAgenda evs).busy = s.busy := rfl
@[simp] theorem State.withAgenda_done (evs : List Event) (s : State) : (s.withAgenda evs).done = s.done := rfl
@[simp] theorem State.withAgenda_perr (evs : List Event) (s : State) : (s.withAgenda evs).perr = s.perr := rfl
@[simp] theorem State.withAgenda_err (evs : List Event) (s : State) : (s.withAgenda evs).err = s.err := rfl
@[simp] theorem State.withAgenda_errBefore (evs : List Event) (s : State) : (s.withAgenda evs).errBefore = s.errBefore := rfl
@[simp] theorem State.withAgenda_cmdl (evs : List Event) (s : State) : (s.withAgenda evs).cmdl = s.cmdl := rfl
@[simp] theorem State.withAgenda_result (evs : List Event) (s : State) : (s.withAgenda evs).result = s.result := rfl
@[simp] theorem State.withAgenda_rsN (evs : List Event) (s : State) : (s.withAgenda evs).rsN = s.rsN := rfl
@[simp] theorem State.withAgenda_rsK (evs : List Event) (s : State) : (s.withAgenda evs).rsK = s.rsK := rfl
@[simp] theorem State.withAgenda_nerr (evs : List Event) (s : State) : (s.withAgenda evs).nerr = s.nerr := rfl
@[simp] theorem State.withAgenda_synz (evs : List Event) (s : State) : (s.withAgenda evs).synz = s.synz := rfl
@[simp] theorem State.withAgenda_imgW (evs : List Event) (s : State) : (s.withAgenda evs).imgW = s.imgW := rfl
@[simp] theorem State.withAgenda_imgH (evs : List Event) (s : State) : (s.withAgenda evs).imgH = s.imgH := rfl
@[simp] theorem State.withAgenda_blkSz (evs : List Event) (s : State) : (s.withAgenda evs).blkSz = s.blkSz := rfl
@[simp] theorem State.withAgenda_gridX (evs : List Event) (s : State) : (s.withAgenda evs).gridX = s.gridX := rfl
@[simp] theorem State.withAgenda_gridY (evs : List Event) (s : State) : (s.withAgenda evs).gridY = s.gridY := rfl
@[simp] theorem State.withAgenda_cw (evs : List Event) (s : State) : (s.withAgenda evs).cw = s.cw := rfl
@[simp] theorem State.withAgenda_syn (evs : List Event) (s : State) : (s.withAgenda evs).syn = s.syn := rfl
@[simp] theorem State.withAgenda_luma (evs : List Event) (s : State) : (s.withAgenda evs).luma = s.luma := rfl
@[simp] theorem State.withAgenda_bin (evs : List Event) (s : State) : (s.withAgenda evs).bin = s.bin := rfl
@[simp] theorem State.withAgenda_agenda (evs : List Event) (s : State) : (s.withAgenda evs).agenda = evs := rfl
@[simp] theorem State.withAgenda_reply (evs : List Event) (s : State) : (s.withAgenda evs).reply = s.reply := rfl
@[simp] theorem State.withAgenda_draws (evs : List Event) (s : State) : (s.withAgenda evs).draws = s.draws := rfl

/-! ### `State.withReply` -/

@[simp] theorem State.withReply_ie (r : BusReply) (s : State) : (s.withReply r).ie = s.ie := rfl
@[simp] theorem State.withReply_busy (r : BusReply) (s : State) : (s.withReply r).busy = s.busy := rfl
@[simp] theorem State.withReply_done (r : BusReply) (s : State) : (s.withReply r).done = s.done := rfl
@[simp] theorem State.withReply_perr (r : BusReply) (s : State) : (s.withReply r).perr = s.perr := rfl
@[simp] theorem State.withReply_err (r : BusReply) (s : State) : (s.withReply r).err = s.err := rfl
@[simp] theorem State.withReply_errBefore (r : BusReply) (s : State) : (s.withReply r).errBefore = s.errBefore := rfl
@[simp] theorem State.withReply_cmdl (r : BusReply) (s : State) : (s.withReply r).cmdl = s.cmdl := rfl
@[simp] theorem State.withReply_result (r : BusReply) (s : State) : (s.withReply r).result = s.result := rfl
@[simp] theorem State.withReply_rsN (r : BusReply) (s : State) : (s.withReply r).rsN = s.rsN := rfl
@[simp] theorem State.withReply_rsK (r : BusReply) (s : State) : (s.withReply r).rsK = s.rsK := rfl
@[simp] theorem State.withReply_nerr (r : BusReply) (s : State) : (s.withReply r).nerr = s.nerr := rfl
@[simp] theorem State.withReply_synz (r : BusReply) (s : State) : (s.withReply r).synz = s.synz := rfl
@[simp] theorem State.withReply_imgW (r : BusReply) (s : State) : (s.withReply r).imgW = s.imgW := rfl
@[simp] theorem State.withReply_imgH (r : BusReply) (s : State) : (s.withReply r).imgH = s.imgH := rfl
@[simp] theorem State.withReply_blkSz (r : BusReply) (s : State) : (s.withReply r).blkSz = s.blkSz := rfl
@[simp] theorem State.withReply_gridX (r : BusReply) (s : State) : (s.withReply r).gridX = s.gridX := rfl
@[simp] theorem State.withReply_gridY (r : BusReply) (s : State) : (s.withReply r).gridY = s.gridY := rfl
@[simp] theorem State.withReply_cw (r : BusReply) (s : State) : (s.withReply r).cw = s.cw := rfl
@[simp] theorem State.withReply_syn (r : BusReply) (s : State) : (s.withReply r).syn = s.syn := rfl
@[simp] theorem State.withReply_luma (r : BusReply) (s : State) : (s.withReply r).luma = s.luma := rfl
@[simp] theorem State.withReply_bin (r : BusReply) (s : State) : (s.withReply r).bin = s.bin := rfl
@[simp] theorem State.withReply_agenda (r : BusReply) (s : State) : (s.withReply r).agenda = s.agenda := rfl
@[simp] theorem State.withReply_reply (r : BusReply) (s : State) : (s.withReply r).reply = r := rfl
@[simp] theorem State.withReply_draws (r : BusReply) (s : State) : (s.withReply r).draws = s.draws := rfl

/-! ### `State.drawn` -/

@[simp] theorem State.drawn_ie (s : State) : (s.drawn).ie = s.ie := rfl
@[simp] theorem State.drawn_busy (s : State) : (s.drawn).busy = s.busy := rfl
@[simp] theorem State.drawn_done (s : State) : (s.drawn).done = s.done := rfl
@[simp] theorem State.drawn_perr (s : State) : (s.drawn).perr = s.perr := rfl
@[simp] theorem State.drawn_err (s : State) : (s.drawn).err = s.err := rfl
@[simp] theorem State.drawn_errBefore (s : State) : (s.drawn).errBefore = s.errBefore := rfl
@[simp] theorem State.drawn_cmdl (s : State) : (s.drawn).cmdl = s.cmdl := rfl
@[simp] theorem State.drawn_result (s : State) : (s.drawn).result = s.result := rfl
@[simp] theorem State.drawn_rsN (s : State) : (s.drawn).rsN = s.rsN := rfl
@[simp] theorem State.drawn_rsK (s : State) : (s.drawn).rsK = s.rsK := rfl
@[simp] theorem State.drawn_nerr (s : State) : (s.drawn).nerr = s.nerr := rfl
@[simp] theorem State.drawn_synz (s : State) : (s.drawn).synz = s.synz := rfl
@[simp] theorem State.drawn_imgW (s : State) : (s.drawn).imgW = s.imgW := rfl
@[simp] theorem State.drawn_imgH (s : State) : (s.drawn).imgH = s.imgH := rfl
@[simp] theorem State.drawn_blkSz (s : State) : (s.drawn).blkSz = s.blkSz := rfl
@[simp] theorem State.drawn_gridX (s : State) : (s.drawn).gridX = s.gridX := rfl
@[simp] theorem State.drawn_gridY (s : State) : (s.drawn).gridY = s.gridY := rfl
@[simp] theorem State.drawn_cw (s : State) : (s.drawn).cw = s.cw := rfl
@[simp] theorem State.drawn_syn (s : State) : (s.drawn).syn = s.syn := rfl
@[simp] theorem State.drawn_luma (s : State) : (s.drawn).luma = s.luma := rfl
@[simp] theorem State.drawn_bin (s : State) : (s.drawn).bin = s.bin := rfl
@[simp] theorem State.drawn_agenda (s : State) : (s.drawn).agenda = s.agenda := rfl
@[simp] theorem State.drawn_reply (s : State) : (s.drawn).reply = s.reply := rfl
@[simp] theorem State.drawn_draws (s : State) : (s.drawn).draws = s.draws + 1 := rfl

/-! ### `State.writeStatus` -/

@[simp] theorem State.writeStatus_ie (v : Word) (s : State) : (s.writeStatus v).ie = s.ie := rfl
@[simp] theorem State.writeStatus_busy (v : Word) (s : State) : (s.writeStatus v).busy = s.busy := rfl
@[simp] theorem State.writeStatus_done (v : Word) (s : State) : (s.writeStatus v).done = (s.done && !v.getLsbD 1) := rfl
@[simp] theorem State.writeStatus_perr (v : Word) (s : State) : (s.writeStatus v).perr = (s.perr && !v.getLsbD 2) := rfl
@[simp] theorem State.writeStatus_err (v : Word) (s : State) : (s.writeStatus v).err = s.err := rfl
@[simp] theorem State.writeStatus_errBefore (v : Word) (s : State) : (s.writeStatus v).errBefore = s.errBefore := rfl
@[simp] theorem State.writeStatus_cmdl (v : Word) (s : State) : (s.writeStatus v).cmdl = s.cmdl := rfl
@[simp] theorem State.writeStatus_result (v : Word) (s : State) : (s.writeStatus v).result = s.result := rfl
@[simp] theorem State.writeStatus_rsN (v : Word) (s : State) : (s.writeStatus v).rsN = s.rsN := rfl
@[simp] theorem State.writeStatus_rsK (v : Word) (s : State) : (s.writeStatus v).rsK = s.rsK := rfl
@[simp] theorem State.writeStatus_nerr (v : Word) (s : State) : (s.writeStatus v).nerr = s.nerr := rfl
@[simp] theorem State.writeStatus_synz (v : Word) (s : State) : (s.writeStatus v).synz = s.synz := rfl
@[simp] theorem State.writeStatus_imgW (v : Word) (s : State) : (s.writeStatus v).imgW = s.imgW := rfl
@[simp] theorem State.writeStatus_imgH (v : Word) (s : State) : (s.writeStatus v).imgH = s.imgH := rfl
@[simp] theorem State.writeStatus_blkSz (v : Word) (s : State) : (s.writeStatus v).blkSz = s.blkSz := rfl
@[simp] theorem State.writeStatus_gridX (v : Word) (s : State) : (s.writeStatus v).gridX = s.gridX := rfl
@[simp] theorem State.writeStatus_gridY (v : Word) (s : State) : (s.writeStatus v).gridY = s.gridY := rfl
@[simp] theorem State.writeStatus_cw (v : Word) (s : State) : (s.writeStatus v).cw = s.cw := rfl
@[simp] theorem State.writeStatus_syn (v : Word) (s : State) : (s.writeStatus v).syn = s.syn := rfl
@[simp] theorem State.writeStatus_luma (v : Word) (s : State) : (s.writeStatus v).luma = s.luma := rfl
@[simp] theorem State.writeStatus_bin (v : Word) (s : State) : (s.writeStatus v).bin = s.bin := rfl
@[simp] theorem State.writeStatus_agenda (v : Word) (s : State) : (s.writeStatus v).agenda = s.agenda := rfl
@[simp] theorem State.writeStatus_reply (v : Word) (s : State) : (s.writeStatus v).reply = s.reply := rfl
@[simp] theorem State.writeStatus_draws (v : Word) (s : State) : (s.writeStatus v).draws = s.draws := rfl

/-! ### `State.protocolError` -/

@[simp] theorem State.protocolError_ie (s : State) : (s.protocolError).ie = s.ie := rfl
@[simp] theorem State.protocolError_busy (s : State) : (s.protocolError).busy = s.busy := rfl
@[simp] theorem State.protocolError_done (s : State) : (s.protocolError).done = s.done := rfl
@[simp] theorem State.protocolError_perr (s : State) : (s.protocolError).perr = true := rfl
@[simp] theorem State.protocolError_err (s : State) : (s.protocolError).err = s.err := rfl
@[simp] theorem State.protocolError_errBefore (s : State) : (s.protocolError).errBefore = s.errBefore := rfl
@[simp] theorem State.protocolError_cmdl (s : State) : (s.protocolError).cmdl = s.cmdl := rfl
@[simp] theorem State.protocolError_result (s : State) : (s.protocolError).result = s.result := rfl
@[simp] theorem State.protocolError_rsN (s : State) : (s.protocolError).rsN = s.rsN := rfl
@[simp] theorem State.protocolError_rsK (s : State) : (s.protocolError).rsK = s.rsK := rfl
@[simp] theorem State.protocolError_nerr (s : State) : (s.protocolError).nerr = s.nerr := rfl
@[simp] theorem State.protocolError_synz (s : State) : (s.protocolError).synz = s.synz := rfl
@[simp] theorem State.protocolError_imgW (s : State) : (s.protocolError).imgW = s.imgW := rfl
@[simp] theorem State.protocolError_imgH (s : State) : (s.protocolError).imgH = s.imgH := rfl
@[simp] theorem State.protocolError_blkSz (s : State) : (s.protocolError).blkSz = s.blkSz := rfl
@[simp] theorem State.protocolError_gridX (s : State) : (s.protocolError).gridX = s.gridX := rfl
@[simp] theorem State.protocolError_gridY (s : State) : (s.protocolError).gridY = s.gridY := rfl
@[simp] theorem State.protocolError_cw (s : State) : (s.protocolError).cw = s.cw := rfl
@[simp] theorem State.protocolError_syn (s : State) : (s.protocolError).syn = s.syn := rfl
@[simp] theorem State.protocolError_luma (s : State) : (s.protocolError).luma = s.luma := rfl
@[simp] theorem State.protocolError_bin (s : State) : (s.protocolError).bin = s.bin := rfl
@[simp] theorem State.protocolError_agenda (s : State) : (s.protocolError).agenda = s.agenda := rfl
@[simp] theorem State.protocolError_reply (s : State) : (s.protocolError).reply = s.reply := rfl
@[simp] theorem State.protocolError_draws (s : State) : (s.protocolError).draws = s.draws := rfl

/-! ### `State.resetRegisters` -/

@[simp] theorem State.resetRegisters_ie (s : State) : (s.resetRegisters).ie = State.reset.ie := rfl
@[simp] theorem State.resetRegisters_busy (s : State) : (s.resetRegisters).busy = State.reset.busy := rfl
@[simp] theorem State.resetRegisters_done (s : State) : (s.resetRegisters).done = State.reset.done := rfl
@[simp] theorem State.resetRegisters_perr (s : State) : (s.resetRegisters).perr = State.reset.perr := rfl
@[simp] theorem State.resetRegisters_err (s : State) : (s.resetRegisters).err = State.reset.err := rfl
@[simp] theorem State.resetRegisters_errBefore (s : State) : (s.resetRegisters).errBefore = State.reset.errBefore := rfl
@[simp] theorem State.resetRegisters_cmdl (s : State) : (s.resetRegisters).cmdl = State.reset.cmdl := rfl
@[simp] theorem State.resetRegisters_result (s : State) : (s.resetRegisters).result = State.reset.result := rfl
@[simp] theorem State.resetRegisters_rsN (s : State) : (s.resetRegisters).rsN = State.reset.rsN := rfl
@[simp] theorem State.resetRegisters_rsK (s : State) : (s.resetRegisters).rsK = State.reset.rsK := rfl
@[simp] theorem State.resetRegisters_nerr (s : State) : (s.resetRegisters).nerr = State.reset.nerr := rfl
@[simp] theorem State.resetRegisters_synz (s : State) : (s.resetRegisters).synz = State.reset.synz := rfl
@[simp] theorem State.resetRegisters_imgW (s : State) : (s.resetRegisters).imgW = State.reset.imgW := rfl
@[simp] theorem State.resetRegisters_imgH (s : State) : (s.resetRegisters).imgH = State.reset.imgH := rfl
@[simp] theorem State.resetRegisters_blkSz (s : State) : (s.resetRegisters).blkSz = State.reset.blkSz := rfl
@[simp] theorem State.resetRegisters_gridX (s : State) : (s.resetRegisters).gridX = State.reset.gridX := rfl
@[simp] theorem State.resetRegisters_gridY (s : State) : (s.resetRegisters).gridY = State.reset.gridY := rfl
@[simp] theorem State.resetRegisters_cw (s : State) : (s.resetRegisters).cw = s.cw := rfl
@[simp] theorem State.resetRegisters_syn (s : State) : (s.resetRegisters).syn = s.syn := rfl
@[simp] theorem State.resetRegisters_luma (s : State) : (s.resetRegisters).luma = s.luma := rfl
@[simp] theorem State.resetRegisters_bin (s : State) : (s.resetRegisters).bin = s.bin := rfl
@[simp] theorem State.resetRegisters_agenda (s : State) : (s.resetRegisters).agenda = s.agenda := rfl
@[simp] theorem State.resetRegisters_reply (s : State) : (s.resetRegisters).reply = s.reply := rfl
@[simp] theorem State.resetRegisters_draws (s : State) : (s.resetRegisters).draws = s.draws := rfl

/-! ### The memories by bank -/

@[simp] theorem State.mem_cw (s : State) : s.mem .cw = s.cw := rfl
@[simp] theorem State.mem_syn (s : State) : s.mem .syn = s.syn := rfl
@[simp] theorem State.mem_luma (s : State) : s.mem .luma = s.luma := rfl
@[simp] theorem State.mem_bin (s : State) : s.mem .bin = s.bin := rfl

@[simp] theorem State.setMem_cw_cw (s : State) (m : Memory) : (s.setMem .cw m).cw = m := rfl
@[simp] theorem State.setMem_cw_syn (s : State) (m : Memory) : (s.setMem .cw m).syn = s.syn := rfl
@[simp] theorem State.setMem_cw_luma (s : State) (m : Memory) : (s.setMem .cw m).luma = s.luma := rfl
@[simp] theorem State.setMem_cw_bin (s : State) (m : Memory) : (s.setMem .cw m).bin = s.bin := rfl
@[simp] theorem State.setMem_syn_cw (s : State) (m : Memory) : (s.setMem .syn m).cw = s.cw := rfl
@[simp] theorem State.setMem_syn_syn (s : State) (m : Memory) : (s.setMem .syn m).syn = m := rfl
@[simp] theorem State.setMem_syn_luma (s : State) (m : Memory) : (s.setMem .syn m).luma = s.luma := rfl
@[simp] theorem State.setMem_syn_bin (s : State) (m : Memory) : (s.setMem .syn m).bin = s.bin := rfl
@[simp] theorem State.setMem_luma_cw (s : State) (m : Memory) : (s.setMem .luma m).cw = s.cw := rfl
@[simp] theorem State.setMem_luma_syn (s : State) (m : Memory) : (s.setMem .luma m).syn = s.syn := rfl
@[simp] theorem State.setMem_luma_luma (s : State) (m : Memory) : (s.setMem .luma m).luma = m := rfl
@[simp] theorem State.setMem_luma_bin (s : State) (m : Memory) : (s.setMem .luma m).bin = s.bin := rfl
@[simp] theorem State.setMem_bin_cw (s : State) (m : Memory) : (s.setMem .bin m).cw = s.cw := rfl
@[simp] theorem State.setMem_bin_syn (s : State) (m : Memory) : (s.setMem .bin m).syn = s.syn := rfl
@[simp] theorem State.setMem_bin_luma (s : State) (m : Memory) : (s.setMem .bin m).luma = s.luma := rfl
@[simp] theorem State.setMem_bin_bin (s : State) (m : Memory) : (s.setMem .bin m).bin = m := rfl

@[simp] theorem State.mem_setMem_same (s : State) (b : Bank) (m : Memory) : (s.setMem b m).mem b = m := by
  cases b <;> rfl

theorem State.mem_setMem_other (s : State) {b b' : Bank} (m : Memory) (h : b' ≠ b) :
    (s.setMem b m).mem b' = s.mem b' := by
  cases b <;> cases b' <;> first | rfl | exact absurd rfl h

/-! ### `State.setMem`, `State.setCell`, `State.setCells` and `State.loseBanks`: every field but the memories -/

@[simp] theorem State.setMem_ie (s : State) (b : Bank) (m : Memory) : (s.setMem b m).ie = s.ie := by
  cases b <;> rfl
@[simp] theorem State.setMem_busy (s : State) (b : Bank) (m : Memory) : (s.setMem b m).busy = s.busy := by
  cases b <;> rfl
@[simp] theorem State.setMem_done (s : State) (b : Bank) (m : Memory) : (s.setMem b m).done = s.done := by
  cases b <;> rfl
@[simp] theorem State.setMem_perr (s : State) (b : Bank) (m : Memory) : (s.setMem b m).perr = s.perr := by
  cases b <;> rfl
@[simp] theorem State.setMem_err (s : State) (b : Bank) (m : Memory) : (s.setMem b m).err = s.err := by
  cases b <;> rfl
@[simp] theorem State.setMem_errBefore (s : State) (b : Bank) (m : Memory) : (s.setMem b m).errBefore = s.errBefore := by
  cases b <;> rfl
@[simp] theorem State.setMem_cmdl (s : State) (b : Bank) (m : Memory) : (s.setMem b m).cmdl = s.cmdl := by
  cases b <;> rfl
@[simp] theorem State.setMem_result (s : State) (b : Bank) (m : Memory) : (s.setMem b m).result = s.result := by
  cases b <;> rfl
@[simp] theorem State.setMem_rsN (s : State) (b : Bank) (m : Memory) : (s.setMem b m).rsN = s.rsN := by
  cases b <;> rfl
@[simp] theorem State.setMem_rsK (s : State) (b : Bank) (m : Memory) : (s.setMem b m).rsK = s.rsK := by
  cases b <;> rfl
@[simp] theorem State.setMem_nerr (s : State) (b : Bank) (m : Memory) : (s.setMem b m).nerr = s.nerr := by
  cases b <;> rfl
@[simp] theorem State.setMem_synz (s : State) (b : Bank) (m : Memory) : (s.setMem b m).synz = s.synz := by
  cases b <;> rfl
@[simp] theorem State.setMem_imgW (s : State) (b : Bank) (m : Memory) : (s.setMem b m).imgW = s.imgW := by
  cases b <;> rfl
@[simp] theorem State.setMem_imgH (s : State) (b : Bank) (m : Memory) : (s.setMem b m).imgH = s.imgH := by
  cases b <;> rfl
@[simp] theorem State.setMem_blkSz (s : State) (b : Bank) (m : Memory) : (s.setMem b m).blkSz = s.blkSz := by
  cases b <;> rfl
@[simp] theorem State.setMem_gridX (s : State) (b : Bank) (m : Memory) : (s.setMem b m).gridX = s.gridX := by
  cases b <;> rfl
@[simp] theorem State.setMem_gridY (s : State) (b : Bank) (m : Memory) : (s.setMem b m).gridY = s.gridY := by
  cases b <;> rfl
@[simp] theorem State.setMem_agenda (s : State) (b : Bank) (m : Memory) : (s.setMem b m).agenda = s.agenda := by
  cases b <;> rfl
@[simp] theorem State.setMem_reply (s : State) (b : Bank) (m : Memory) : (s.setMem b m).reply = s.reply := by
  cases b <;> rfl
@[simp] theorem State.setMem_draws (s : State) (b : Bank) (m : Memory) : (s.setMem b m).draws = s.draws := by
  cases b <;> rfl

@[simp] theorem State.setCell_ie (s : State) (b : Bank) (i : Nat) (v : Byte) : (s.setCell b i v).ie = s.ie :=
  State.setMem_ie ..
@[simp] theorem State.setCell_busy (s : State) (b : Bank) (i : Nat) (v : Byte) : (s.setCell b i v).busy = s.busy :=
  State.setMem_busy ..
@[simp] theorem State.setCell_done (s : State) (b : Bank) (i : Nat) (v : Byte) : (s.setCell b i v).done = s.done :=
  State.setMem_done ..
@[simp] theorem State.setCell_perr (s : State) (b : Bank) (i : Nat) (v : Byte) : (s.setCell b i v).perr = s.perr :=
  State.setMem_perr ..
@[simp] theorem State.setCell_err (s : State) (b : Bank) (i : Nat) (v : Byte) : (s.setCell b i v).err = s.err :=
  State.setMem_err ..
@[simp] theorem State.setCell_errBefore (s : State) (b : Bank) (i : Nat) (v : Byte) : (s.setCell b i v).errBefore = s.errBefore :=
  State.setMem_errBefore ..
@[simp] theorem State.setCell_cmdl (s : State) (b : Bank) (i : Nat) (v : Byte) : (s.setCell b i v).cmdl = s.cmdl :=
  State.setMem_cmdl ..
@[simp] theorem State.setCell_result (s : State) (b : Bank) (i : Nat) (v : Byte) : (s.setCell b i v).result = s.result :=
  State.setMem_result ..
@[simp] theorem State.setCell_rsN (s : State) (b : Bank) (i : Nat) (v : Byte) : (s.setCell b i v).rsN = s.rsN :=
  State.setMem_rsN ..
@[simp] theorem State.setCell_rsK (s : State) (b : Bank) (i : Nat) (v : Byte) : (s.setCell b i v).rsK = s.rsK :=
  State.setMem_rsK ..
@[simp] theorem State.setCell_nerr (s : State) (b : Bank) (i : Nat) (v : Byte) : (s.setCell b i v).nerr = s.nerr :=
  State.setMem_nerr ..
@[simp] theorem State.setCell_synz (s : State) (b : Bank) (i : Nat) (v : Byte) : (s.setCell b i v).synz = s.synz :=
  State.setMem_synz ..
@[simp] theorem State.setCell_imgW (s : State) (b : Bank) (i : Nat) (v : Byte) : (s.setCell b i v).imgW = s.imgW :=
  State.setMem_imgW ..
@[simp] theorem State.setCell_imgH (s : State) (b : Bank) (i : Nat) (v : Byte) : (s.setCell b i v).imgH = s.imgH :=
  State.setMem_imgH ..
@[simp] theorem State.setCell_blkSz (s : State) (b : Bank) (i : Nat) (v : Byte) : (s.setCell b i v).blkSz = s.blkSz :=
  State.setMem_blkSz ..
@[simp] theorem State.setCell_gridX (s : State) (b : Bank) (i : Nat) (v : Byte) : (s.setCell b i v).gridX = s.gridX :=
  State.setMem_gridX ..
@[simp] theorem State.setCell_gridY (s : State) (b : Bank) (i : Nat) (v : Byte) : (s.setCell b i v).gridY = s.gridY :=
  State.setMem_gridY ..
@[simp] theorem State.setCell_agenda (s : State) (b : Bank) (i : Nat) (v : Byte) : (s.setCell b i v).agenda = s.agenda :=
  State.setMem_agenda ..
@[simp] theorem State.setCell_reply (s : State) (b : Bank) (i : Nat) (v : Byte) : (s.setCell b i v).reply = s.reply :=
  State.setMem_reply ..
@[simp] theorem State.setCell_draws (s : State) (b : Bank) (i : Nat) (v : Byte) : (s.setCell b i v).draws = s.draws :=
  State.setMem_draws ..

@[simp] theorem State.setCells_ie (s : State) (b : Bank) (i : Nat) (vs : List Byte) :
    (s.setCells b i vs).ie = s.ie := by
  induction vs generalizing s i with
  | nil => rfl
  | cons v vs ih => rw [State.setCells, ih, State.setCell_ie]
@[simp] theorem State.setCells_busy (s : State) (b : Bank) (i : Nat) (vs : List Byte) :
    (s.setCells b i vs).busy = s.busy := by
  induction vs generalizing s i with
  | nil => rfl
  | cons v vs ih => rw [State.setCells, ih, State.setCell_busy]
@[simp] theorem State.setCells_done (s : State) (b : Bank) (i : Nat) (vs : List Byte) :
    (s.setCells b i vs).done = s.done := by
  induction vs generalizing s i with
  | nil => rfl
  | cons v vs ih => rw [State.setCells, ih, State.setCell_done]
@[simp] theorem State.setCells_perr (s : State) (b : Bank) (i : Nat) (vs : List Byte) :
    (s.setCells b i vs).perr = s.perr := by
  induction vs generalizing s i with
  | nil => rfl
  | cons v vs ih => rw [State.setCells, ih, State.setCell_perr]
@[simp] theorem State.setCells_err (s : State) (b : Bank) (i : Nat) (vs : List Byte) :
    (s.setCells b i vs).err = s.err := by
  induction vs generalizing s i with
  | nil => rfl
  | cons v vs ih => rw [State.setCells, ih, State.setCell_err]
@[simp] theorem State.setCells_errBefore (s : State) (b : Bank) (i : Nat) (vs : List Byte) :
    (s.setCells b i vs).errBefore = s.errBefore := by
  induction vs generalizing s i with
  | nil => rfl
  | cons v vs ih => rw [State.setCells, ih, State.setCell_errBefore]
@[simp] theorem State.setCells_cmdl (s : State) (b : Bank) (i : Nat) (vs : List Byte) :
    (s.setCells b i vs).cmdl = s.cmdl := by
  induction vs generalizing s i with
  | nil => rfl
  | cons v vs ih => rw [State.setCells, ih, State.setCell_cmdl]
@[simp] theorem State.setCells_result (s : State) (b : Bank) (i : Nat) (vs : List Byte) :
    (s.setCells b i vs).result = s.result := by
  induction vs generalizing s i with
  | nil => rfl
  | cons v vs ih => rw [State.setCells, ih, State.setCell_result]
@[simp] theorem State.setCells_rsN (s : State) (b : Bank) (i : Nat) (vs : List Byte) :
    (s.setCells b i vs).rsN = s.rsN := by
  induction vs generalizing s i with
  | nil => rfl
  | cons v vs ih => rw [State.setCells, ih, State.setCell_rsN]
@[simp] theorem State.setCells_rsK (s : State) (b : Bank) (i : Nat) (vs : List Byte) :
    (s.setCells b i vs).rsK = s.rsK := by
  induction vs generalizing s i with
  | nil => rfl
  | cons v vs ih => rw [State.setCells, ih, State.setCell_rsK]
@[simp] theorem State.setCells_nerr (s : State) (b : Bank) (i : Nat) (vs : List Byte) :
    (s.setCells b i vs).nerr = s.nerr := by
  induction vs generalizing s i with
  | nil => rfl
  | cons v vs ih => rw [State.setCells, ih, State.setCell_nerr]
@[simp] theorem State.setCells_synz (s : State) (b : Bank) (i : Nat) (vs : List Byte) :
    (s.setCells b i vs).synz = s.synz := by
  induction vs generalizing s i with
  | nil => rfl
  | cons v vs ih => rw [State.setCells, ih, State.setCell_synz]
@[simp] theorem State.setCells_imgW (s : State) (b : Bank) (i : Nat) (vs : List Byte) :
    (s.setCells b i vs).imgW = s.imgW := by
  induction vs generalizing s i with
  | nil => rfl
  | cons v vs ih => rw [State.setCells, ih, State.setCell_imgW]
@[simp] theorem State.setCells_imgH (s : State) (b : Bank) (i : Nat) (vs : List Byte) :
    (s.setCells b i vs).imgH = s.imgH := by
  induction vs generalizing s i with
  | nil => rfl
  | cons v vs ih => rw [State.setCells, ih, State.setCell_imgH]
@[simp] theorem State.setCells_blkSz (s : State) (b : Bank) (i : Nat) (vs : List Byte) :
    (s.setCells b i vs).blkSz = s.blkSz := by
  induction vs generalizing s i with
  | nil => rfl
  | cons v vs ih => rw [State.setCells, ih, State.setCell_blkSz]
@[simp] theorem State.setCells_gridX (s : State) (b : Bank) (i : Nat) (vs : List Byte) :
    (s.setCells b i vs).gridX = s.gridX := by
  induction vs generalizing s i with
  | nil => rfl
  | cons v vs ih => rw [State.setCells, ih, State.setCell_gridX]
@[simp] theorem State.setCells_gridY (s : State) (b : Bank) (i : Nat) (vs : List Byte) :
    (s.setCells b i vs).gridY = s.gridY := by
  induction vs generalizing s i with
  | nil => rfl
  | cons v vs ih => rw [State.setCells, ih, State.setCell_gridY]
@[simp] theorem State.setCells_agenda (s : State) (b : Bank) (i : Nat) (vs : List Byte) :
    (s.setCells b i vs).agenda = s.agenda := by
  induction vs generalizing s i with
  | nil => rfl
  | cons v vs ih => rw [State.setCells, ih, State.setCell_agenda]
@[simp] theorem State.setCells_reply (s : State) (b : Bank) (i : Nat) (vs : List Byte) :
    (s.setCells b i vs).reply = s.reply := by
  induction vs generalizing s i with
  | nil => rfl
  | cons v vs ih => rw [State.setCells, ih, State.setCell_reply]
@[simp] theorem State.setCells_draws (s : State) (b : Bank) (i : Nat) (vs : List Byte) :
    (s.setCells b i vs).draws = s.draws := by
  induction vs generalizing s i with
  | nil => rfl
  | cons v vs ih => rw [State.setCells, ih, State.setCell_draws]

@[simp] theorem State.loseBanks_ie (s : State) (d : Nat) (bs : List Bank) : (s.loseBanks d bs).ie = s.ie := by
  induction bs generalizing s with
  | nil => rfl
  | cons b bs ih => rw [State.loseBanks, ih, State.setMem_ie]
@[simp] theorem State.loseBanks_busy (s : State) (d : Nat) (bs : List Bank) : (s.loseBanks d bs).busy = s.busy := by
  induction bs generalizing s with
  | nil => rfl
  | cons b bs ih => rw [State.loseBanks, ih, State.setMem_busy]
@[simp] theorem State.loseBanks_done (s : State) (d : Nat) (bs : List Bank) : (s.loseBanks d bs).done = s.done := by
  induction bs generalizing s with
  | nil => rfl
  | cons b bs ih => rw [State.loseBanks, ih, State.setMem_done]
@[simp] theorem State.loseBanks_perr (s : State) (d : Nat) (bs : List Bank) : (s.loseBanks d bs).perr = s.perr := by
  induction bs generalizing s with
  | nil => rfl
  | cons b bs ih => rw [State.loseBanks, ih, State.setMem_perr]
@[simp] theorem State.loseBanks_err (s : State) (d : Nat) (bs : List Bank) : (s.loseBanks d bs).err = s.err := by
  induction bs generalizing s with
  | nil => rfl
  | cons b bs ih => rw [State.loseBanks, ih, State.setMem_err]
@[simp] theorem State.loseBanks_errBefore (s : State) (d : Nat) (bs : List Bank) : (s.loseBanks d bs).errBefore = s.errBefore := by
  induction bs generalizing s with
  | nil => rfl
  | cons b bs ih => rw [State.loseBanks, ih, State.setMem_errBefore]
@[simp] theorem State.loseBanks_cmdl (s : State) (d : Nat) (bs : List Bank) : (s.loseBanks d bs).cmdl = s.cmdl := by
  induction bs generalizing s with
  | nil => rfl
  | cons b bs ih => rw [State.loseBanks, ih, State.setMem_cmdl]
@[simp] theorem State.loseBanks_result (s : State) (d : Nat) (bs : List Bank) : (s.loseBanks d bs).result = s.result := by
  induction bs generalizing s with
  | nil => rfl
  | cons b bs ih => rw [State.loseBanks, ih, State.setMem_result]
@[simp] theorem State.loseBanks_rsN (s : State) (d : Nat) (bs : List Bank) : (s.loseBanks d bs).rsN = s.rsN := by
  induction bs generalizing s with
  | nil => rfl
  | cons b bs ih => rw [State.loseBanks, ih, State.setMem_rsN]
@[simp] theorem State.loseBanks_rsK (s : State) (d : Nat) (bs : List Bank) : (s.loseBanks d bs).rsK = s.rsK := by
  induction bs generalizing s with
  | nil => rfl
  | cons b bs ih => rw [State.loseBanks, ih, State.setMem_rsK]
@[simp] theorem State.loseBanks_nerr (s : State) (d : Nat) (bs : List Bank) : (s.loseBanks d bs).nerr = s.nerr := by
  induction bs generalizing s with
  | nil => rfl
  | cons b bs ih => rw [State.loseBanks, ih, State.setMem_nerr]
@[simp] theorem State.loseBanks_synz (s : State) (d : Nat) (bs : List Bank) : (s.loseBanks d bs).synz = s.synz := by
  induction bs generalizing s with
  | nil => rfl
  | cons b bs ih => rw [State.loseBanks, ih, State.setMem_synz]
@[simp] theorem State.loseBanks_imgW (s : State) (d : Nat) (bs : List Bank) : (s.loseBanks d bs).imgW = s.imgW := by
  induction bs generalizing s with
  | nil => rfl
  | cons b bs ih => rw [State.loseBanks, ih, State.setMem_imgW]
@[simp] theorem State.loseBanks_imgH (s : State) (d : Nat) (bs : List Bank) : (s.loseBanks d bs).imgH = s.imgH := by
  induction bs generalizing s with
  | nil => rfl
  | cons b bs ih => rw [State.loseBanks, ih, State.setMem_imgH]
@[simp] theorem State.loseBanks_blkSz (s : State) (d : Nat) (bs : List Bank) : (s.loseBanks d bs).blkSz = s.blkSz := by
  induction bs generalizing s with
  | nil => rfl
  | cons b bs ih => rw [State.loseBanks, ih, State.setMem_blkSz]
@[simp] theorem State.loseBanks_gridX (s : State) (d : Nat) (bs : List Bank) : (s.loseBanks d bs).gridX = s.gridX := by
  induction bs generalizing s with
  | nil => rfl
  | cons b bs ih => rw [State.loseBanks, ih, State.setMem_gridX]
@[simp] theorem State.loseBanks_gridY (s : State) (d : Nat) (bs : List Bank) : (s.loseBanks d bs).gridY = s.gridY := by
  induction bs generalizing s with
  | nil => rfl
  | cons b bs ih => rw [State.loseBanks, ih, State.setMem_gridY]
@[simp] theorem State.loseBanks_agenda (s : State) (d : Nat) (bs : List Bank) : (s.loseBanks d bs).agenda = s.agenda := by
  induction bs generalizing s with
  | nil => rfl
  | cons b bs ih => rw [State.loseBanks, ih, State.setMem_agenda]
@[simp] theorem State.loseBanks_reply (s : State) (d : Nat) (bs : List Bank) : (s.loseBanks d bs).reply = s.reply := by
  induction bs generalizing s with
  | nil => rfl
  | cons b bs ih => rw [State.loseBanks, ih, State.setMem_reply]
@[simp] theorem State.loseBanks_draws (s : State) (d : Nat) (bs : List Bank) : (s.loseBanks d bs).draws = s.draws := by
  induction bs generalizing s with
  | nil => rfl
  | cons b bs ih => rw [State.loseBanks, ih, State.setMem_draws]

/-! ### The stores of the commands: every field but the memories -/

@[simp] theorem State.storeSyndromes_ie (s : State) : s.storeSyndromes.ie = s.ie :=
  State.setCells_ie ..
@[simp] theorem State.storeSyndromes_busy (s : State) : s.storeSyndromes.busy = s.busy :=
  State.setCells_busy ..
@[simp] theorem State.storeSyndromes_done (s : State) : s.storeSyndromes.done = s.done :=
  State.setCells_done ..
@[simp] theorem State.storeSyndromes_perr (s : State) : s.storeSyndromes.perr = s.perr :=
  State.setCells_perr ..
@[simp] theorem State.storeSyndromes_err (s : State) : s.storeSyndromes.err = s.err :=
  State.setCells_err ..
@[simp] theorem State.storeSyndromes_errBefore (s : State) : s.storeSyndromes.errBefore = s.errBefore :=
  State.setCells_errBefore ..
@[simp] theorem State.storeSyndromes_cmdl (s : State) : s.storeSyndromes.cmdl = s.cmdl :=
  State.setCells_cmdl ..
@[simp] theorem State.storeSyndromes_result (s : State) : s.storeSyndromes.result = s.result :=
  State.setCells_result ..
@[simp] theorem State.storeSyndromes_rsN (s : State) : s.storeSyndromes.rsN = s.rsN :=
  State.setCells_rsN ..
@[simp] theorem State.storeSyndromes_rsK (s : State) : s.storeSyndromes.rsK = s.rsK :=
  State.setCells_rsK ..
@[simp] theorem State.storeSyndromes_nerr (s : State) : s.storeSyndromes.nerr = s.nerr :=
  State.setCells_nerr ..
@[simp] theorem State.storeSyndromes_synz (s : State) : s.storeSyndromes.synz = s.synz :=
  State.setCells_synz ..
@[simp] theorem State.storeSyndromes_imgW (s : State) : s.storeSyndromes.imgW = s.imgW :=
  State.setCells_imgW ..
@[simp] theorem State.storeSyndromes_imgH (s : State) : s.storeSyndromes.imgH = s.imgH :=
  State.setCells_imgH ..
@[simp] theorem State.storeSyndromes_blkSz (s : State) : s.storeSyndromes.blkSz = s.blkSz :=
  State.setCells_blkSz ..
@[simp] theorem State.storeSyndromes_gridX (s : State) : s.storeSyndromes.gridX = s.gridX :=
  State.setCells_gridX ..
@[simp] theorem State.storeSyndromes_gridY (s : State) : s.storeSyndromes.gridY = s.gridY :=
  State.setCells_gridY ..
@[simp] theorem State.storeSyndromes_agenda (s : State) : s.storeSyndromes.agenda = s.agenda :=
  State.setCells_agenda ..
@[simp] theorem State.storeSyndromes_reply (s : State) : s.storeSyndromes.reply = s.reply :=
  State.setCells_reply ..
@[simp] theorem State.storeSyndromes_draws (s : State) : s.storeSyndromes.draws = s.draws :=
  State.setCells_draws ..

@[simp] theorem State.storeBinary_ie (s : State) : s.storeBinary.ie = s.ie :=
  State.setCells_ie ..
@[simp] theorem State.storeBinary_busy (s : State) : s.storeBinary.busy = s.busy :=
  State.setCells_busy ..
@[simp] theorem State.storeBinary_done (s : State) : s.storeBinary.done = s.done :=
  State.setCells_done ..
@[simp] theorem State.storeBinary_perr (s : State) : s.storeBinary.perr = s.perr :=
  State.setCells_perr ..
@[simp] theorem State.storeBinary_err (s : State) : s.storeBinary.err = s.err :=
  State.setCells_err ..
@[simp] theorem State.storeBinary_errBefore (s : State) : s.storeBinary.errBefore = s.errBefore :=
  State.setCells_errBefore ..
@[simp] theorem State.storeBinary_cmdl (s : State) : s.storeBinary.cmdl = s.cmdl :=
  State.setCells_cmdl ..
@[simp] theorem State.storeBinary_result (s : State) : s.storeBinary.result = s.result :=
  State.setCells_result ..
@[simp] theorem State.storeBinary_rsN (s : State) : s.storeBinary.rsN = s.rsN :=
  State.setCells_rsN ..
@[simp] theorem State.storeBinary_rsK (s : State) : s.storeBinary.rsK = s.rsK :=
  State.setCells_rsK ..
@[simp] theorem State.storeBinary_nerr (s : State) : s.storeBinary.nerr = s.nerr :=
  State.setCells_nerr ..
@[simp] theorem State.storeBinary_synz (s : State) : s.storeBinary.synz = s.synz :=
  State.setCells_synz ..
@[simp] theorem State.storeBinary_imgW (s : State) : s.storeBinary.imgW = s.imgW :=
  State.setCells_imgW ..
@[simp] theorem State.storeBinary_imgH (s : State) : s.storeBinary.imgH = s.imgH :=
  State.setCells_imgH ..
@[simp] theorem State.storeBinary_blkSz (s : State) : s.storeBinary.blkSz = s.blkSz :=
  State.setCells_blkSz ..
@[simp] theorem State.storeBinary_gridX (s : State) : s.storeBinary.gridX = s.gridX :=
  State.setCells_gridX ..
@[simp] theorem State.storeBinary_gridY (s : State) : s.storeBinary.gridY = s.gridY :=
  State.setCells_gridY ..
@[simp] theorem State.storeBinary_agenda (s : State) : s.storeBinary.agenda = s.agenda :=
  State.setCells_agenda ..
@[simp] theorem State.storeBinary_reply (s : State) : s.storeBinary.reply = s.reply :=
  State.setCells_reply ..
@[simp] theorem State.storeBinary_draws (s : State) : s.storeBinary.draws = s.draws :=
  State.setCells_draws ..

/-! ### `State.storeGeometry` -/

@[simp] theorem State.storeGeometry_ie (s : State) : (s.storeGeometry).ie = s.ie := rfl
@[simp] theorem State.storeGeometry_busy (s : State) : (s.storeGeometry).busy = s.busy := rfl
@[simp] theorem State.storeGeometry_done (s : State) : (s.storeGeometry).done = s.done := rfl
@[simp] theorem State.storeGeometry_perr (s : State) : (s.storeGeometry).perr = s.perr := rfl
@[simp] theorem State.storeGeometry_err (s : State) : (s.storeGeometry).err = s.err := rfl
@[simp] theorem State.storeGeometry_errBefore (s : State) : (s.storeGeometry).errBefore = s.errBefore := rfl
@[simp] theorem State.storeGeometry_cmdl (s : State) : (s.storeGeometry).cmdl = s.cmdl := rfl
@[simp] theorem State.storeGeometry_result (s : State) : (s.storeGeometry).result = s.result := rfl
@[simp] theorem State.storeGeometry_rsN (s : State) : (s.storeGeometry).rsN = s.rsN := rfl
@[simp] theorem State.storeGeometry_rsK (s : State) : (s.storeGeometry).rsK = s.rsK := rfl
@[simp] theorem State.storeGeometry_nerr (s : State) : (s.storeGeometry).nerr = s.nerr := rfl
@[simp] theorem State.storeGeometry_synz (s : State) : (s.storeGeometry).synz = s.synz := rfl
@[simp] theorem State.storeGeometry_imgW (s : State) : (s.storeGeometry).imgW = s.imgW := rfl
@[simp] theorem State.storeGeometry_imgH (s : State) : (s.storeGeometry).imgH = s.imgH := rfl
@[simp] theorem State.storeGeometry_blkSz (s : State) : (s.storeGeometry).blkSz = BitVec.ofNat 13 (blockSize s.width s.height) := rfl
@[simp] theorem State.storeGeometry_gridX (s : State) : (s.storeGeometry).gridX = BitVec.ofNat 16 (blocksAlong s.width (blockSize s.width s.height)) := rfl
@[simp] theorem State.storeGeometry_gridY (s : State) : (s.storeGeometry).gridY = BitVec.ofNat 16 (blocksAlong s.height (blockSize s.width s.height)) := rfl
@[simp] theorem State.storeGeometry_cw (s : State) : (s.storeGeometry).cw = s.cw := rfl
@[simp] theorem State.storeGeometry_syn (s : State) : (s.storeGeometry).syn = s.syn := rfl
@[simp] theorem State.storeGeometry_luma (s : State) : (s.storeGeometry).luma = s.luma := rfl
@[simp] theorem State.storeGeometry_bin (s : State) : (s.storeGeometry).bin = s.bin := rfl
@[simp] theorem State.storeGeometry_agenda (s : State) : (s.storeGeometry).agenda = s.agenda := rfl
@[simp] theorem State.storeGeometry_reply (s : State) : (s.storeGeometry).reply = s.reply := rfl
@[simp] theorem State.storeGeometry_draws (s : State) : (s.storeGeometry).draws = s.draws := rfl

/-! ### The memory function of the updates that write no memory -/

@[simp] theorem State.mem_accept (v : Word) (s : State) (b : Bank) : (s.accept v).mem b = s.mem b := by
  cases b <;> rfl
@[simp] theorem State.mem_complete (s : State) (b : Bank) : (s.complete).mem b = s.mem b := by
  cases b <;> rfl
@[simp] theorem State.mem_raise (e : ErrorCode) (s : State) (b : Bank) : (s.raise e).mem b = s.mem b := by
  cases b <;> rfl
@[simp] theorem State.mem_setResult (v : Byte) (s : State) (b : Bank) : (s.setResult v).mem b = s.mem b := by
  cases b <;> rfl
@[simp] theorem State.mem_completeGf (v : Byte) (s : State) (b : Bank) : (s.completeGf v).mem b = s.mem b := by
  cases b <;> rfl
@[simp] theorem State.mem_setRsStat (z : Bool) (n : Nat) (s : State) (b : Bank) : (s.setRsStat z n).mem b = s.mem b := by
  cases b <;> rfl
@[simp] theorem State.mem_setBinGeometry (x y z : Nat) (s : State) (b : Bank) : (s.setBinGeometry x y z).mem b = s.mem b := by
  cases b <;> rfl
@[simp] theorem State.mem_withAgenda (evs : List Event) (s : State) (b : Bank) : (s.withAgenda evs).mem b = s.mem b := by
  cases b <;> rfl
@[simp] theorem State.mem_withReply (r : BusReply) (s : State) (b : Bank) : (s.withReply r).mem b = s.mem b := by
  cases b <;> rfl
@[simp] theorem State.mem_drawn (s : State) (b : Bank) : (s.drawn).mem b = s.mem b := by
  cases b <;> rfl
@[simp] theorem State.mem_writeStatus (v : Word) (s : State) (b : Bank) : (s.writeStatus v).mem b = s.mem b := by
  cases b <;> rfl
@[simp] theorem State.mem_protocolError (s : State) (b : Bank) : (s.protocolError).mem b = s.mem b := by
  cases b <;> rfl
@[simp] theorem State.mem_resetRegisters (s : State) (b : Bank) : (s.resetRegisters).mem b = s.mem b := by
  cases b <;> rfl
@[simp] theorem State.mem_storeGeometry (s : State) (b : Bank) : (s.storeGeometry).mem b = s.mem b := by
  cases b <;> rfl

end Sys2Proof.Machine
end

