-- ==== Sys2Proof/Laws/Memory.lean ====
section
/-!
SUPPORT. The memories: a read after a write gives the value written, a write leaves every other cell alone, and every
operation keeps the canonical form.
-/

namespace Sys2Proof.Machine

/-! ### Lists of cells -/

theorem cellLookup_insert_same (cs : List Host.Cell) (a : Nat) (v : Byte) :
    cellLookup (cellInsert cs a v) a = some v := by
  induction cs with
  | nil => simp [cellInsert, cellLookup]
  | cons c rest ih =>
    obtain ⟨k, w⟩ := c
    by_cases hlt : a < k
    · simp [cellInsert, hlt, cellLookup]
    · by_cases heq : a = k
      · simp [cellInsert, heq, cellLookup]
      · have hne : k ≠ a := fun h => heq h.symm
        simp [cellInsert, hlt, heq, cellLookup, hne, ih]

theorem cellLookup_insert_other (cs : List Host.Cell) {a a' : Nat} (v : Byte) (h : a' ≠ a) :
    cellLookup (cellInsert cs a v) a' = cellLookup cs a' := by
  have h' : a ≠ a' := fun e => h e.symm
  induction cs with
  | nil => simp [cellInsert, cellLookup, h']
  | cons c rest ih =>
    obtain ⟨k, w⟩ := c
    by_cases hlt : a < k
    · simp [cellInsert, hlt, cellLookup, h']
    · by_cases heq : a = k
      · subst heq
        simp [cellInsert, cellLookup, h']
      · simp [cellInsert, hlt, heq, cellLookup, ih]

/-- The canonical form is monotone in its lower bound. -/
theorem cellsWf_mono {size lo lo' : Nat} {cs : List Host.Cell} (hle : lo' ≤ lo) (h : cellsWf size lo cs = true) :
    cellsWf size lo' cs = true := by
  cases cs with
  | nil => rfl
  | cons c rest =>
    obtain ⟨k, w⟩ := c
    simp only [cellsWf, Bool.and_eq_true, decide_eq_true_eq] at h ⊢
    exact ⟨⟨hle.trans h.1.1, h.1.2⟩, h.2⟩

/-- Writing one cell keeps the canonical form. -/
theorem cellsWf_insert {size lo : Nat} {cs : List Host.Cell} {a : Nat} (v : Byte) (hlo : lo ≤ a) (ha : a < size)
    (h : cellsWf size lo cs = true) : cellsWf size lo (cellInsert cs a v) = true := by
  induction cs generalizing lo with
  | nil => simp [cellInsert, cellsWf, hlo, ha]
  | cons c rest ih =>
    obtain ⟨k, w⟩ := c
    simp only [cellsWf, Bool.and_eq_true, decide_eq_true_eq] at h
    by_cases hlt : a < k
    · have hk : a + 1 ≤ k := hlt
      simp [cellInsert, hlt, cellsWf, hlo, ha, hk, h.1.2, h.2]
    · by_cases heq : a = k
      · subst heq
        simp [cellInsert, cellsWf, hlo, ha, h.2]
      · have hk : k + 1 ≤ a := by omega
        simp [cellInsert, hlt, heq, cellsWf, h.1.1, h.1.2, ih hk h.2]

/-! ### One memory -/

/-- A memory that lists nothing has the canonical form. -/
@[simp] theorem Memory.wf_unspecified (size d : Nat) : (Memory.unspecified d).wf size = true := rfl

@[simp] theorem Memory.unspecified_epoch (d : Nat) : (Memory.unspecified d).epoch = d := rfl

/-- A cell of an unspecified memory holds its free value. -/
theorem Memory.byteAt_unspecified (b : Bank) (d i : Nat) :
    (Memory.unspecified d).byteAt b i = Config.freeByte d (b.base + i) := rfl

/-! ### Reading after writing -/

/-- Writing a cell keeps the number of the free contents of every memory. -/
@[simp] theorem State.epoch_setCell (s : State) (b b' : Bank) (i : Nat) (v : Byte) :
    ((s.setCell b i v).mem b').epoch = (s.mem b').epoch := by
  by_cases h : b' = b
  · subst h
    simp [State.setCell]
  · simp [State.setCell, State.mem_setMem_other s _ h]

@[simp] theorem State.epoch_setCells (s : State) (b b' : Bank) (i : Nat) (vs : List Byte) :
    ((s.setCells b i vs).mem b').epoch = (s.mem b').epoch := by
  induction vs generalizing s i with
  | nil => rfl
  | cons v vs ih => rw [State.setCells, ih, State.epoch_setCell]

/-- A written cell reads as what was written. -/
@[simp] theorem State.cell_setCell_same (s : State) (b : Bank) (i : Nat) (v : Byte) :
    (s.setCell b i v).cell b i = v := by
  simp [State.cell, State.setCell, Memory.byteAt, cellLookup_insert_same]

/-- A write leaves every other cell of the memory alone. -/
theorem State.cell_setCell_other (s : State) (b : Bank) {i j : Nat} (v : Byte) (h : j ≠ i) :
    (s.setCell b i v).cell b j = s.cell b j := by
  simp [State.cell, State.setCell, Memory.byteAt, cellLookup_insert_other _ v h]

/-- A write leaves every other memory alone. -/
theorem State.mem_setCell_other (s : State) {b b' : Bank} (i : Nat) (v : Byte) (h : b' ≠ b) :
    (s.setCell b i v).mem b' = s.mem b' :=
  State.mem_setMem_other s _ h

theorem State.mem_setCells_other (s : State) {b b' : Bank} (i : Nat) (vs : List Byte) (h : b' ≠ b) :
    (s.setCells b i vs).mem b' = s.mem b' := by
  induction vs generalizing s i with
  | nil => rfl
  | cons v vs ih => rw [State.setCells, ih, State.mem_setCell_other s i v h]

theorem State.cell_setCells_otherBank (s : State) {b b' : Bank} (i j : Nat) (vs : List Byte) (h : b' ≠ b) :
    (s.setCells b i vs).cell b' j = s.cell b' j := by
  rw [State.cell, State.mem_setCells_other s i vs h, ← State.cell]

/-- Cells below the first one written keep their value. -/
theorem State.cell_setCells_below (s : State) (b : Bank) {i j : Nat} (vs : List Byte) (h : j < i) :
    (s.setCells b i vs).cell b j = s.cell b j := by
  induction vs generalizing s i with
  | nil => rfl
  | cons v vs ih => rw [State.setCells, ih _ (by omega), State.cell_setCell_other s b v (by omega)]

/-- Everything a write of consecutive cells does to its memory: the written cells read as written, the others as before. -/
theorem State.cell_setCells (s : State) (b : Bank) (i j : Nat) (vs : List Byte) :
    (s.setCells b i vs).cell b j =
      if i ≤ j ∧ j < i + vs.length then vs.getD (j - i) 0 else s.cell b j := by
  induction vs generalizing s i with
  | nil =>
    have h : ¬ (i ≤ j ∧ j < i + 0) := by omega
    simp only [State.setCells, List.length_nil, if_neg h]
  | cons v vs ih =>
    rw [State.setCells]
    rcases lt_trichotomy j i with h | h | h
    · have h1 : ¬ (i ≤ j ∧ j < i + (v :: vs).length) := by omega
      rw [State.cell_setCells_below _ b vs (by omega), State.cell_setCell_other s b v (by omega), if_neg h1]
    · subst h
      have h1 : j ≤ j ∧ j < j + (v :: vs).length := by simp
      rw [State.cell_setCells_below _ b vs (by omega), State.cell_setCell_same, if_pos h1, Nat.sub_self]
      rfl
    · obtain ⟨d, rfl⟩ : ∃ d, j = i + 1 + d := ⟨j - i - 1, by omega⟩
      have h2 : i + 1 + d - (i + 1) = d := by omega
      have h3 : i + 1 + d - i = d + 1 := by omega
      rw [ih, State.cell_setCell_other s b v (by omega), h2, h3, List.getD_cons_succ, List.length_cons]
      exact if_congr (by omega) rfl rfl

/-! ### The canonical form of all four memories -/

theorem State.memWf_iff (s : State) : s.memWf = true ↔ ∀ b : Bank, (s.mem b).wf b.size = true := by
  simp only [State.memWf, Bool.and_eq_true]
  constructor
  · rintro ⟨⟨⟨h1, h2⟩, h3⟩, h4⟩ b
    cases b <;> assumption
  · intro h
    exact ⟨⟨⟨h .cw, h .syn⟩, h .luma⟩, h .bin⟩

/-- The memories of the reset state have the canonical form. -/
theorem State.memWf_reset : State.reset.memWf = true := rfl

/-- Replacing a memory by one in canonical form keeps the form. -/
theorem State.memWf_setMem {s : State} {b : Bank} {m : Memory} (hm : m.wf b.size = true) (h : s.memWf = true) :
    (s.setMem b m).memWf = true := by
  rw [State.memWf_iff] at h ⊢
  intro b'
  by_cases hb : b' = b
  · subst hb
    rw [State.mem_setMem_same]
    exact hm
  · rw [State.mem_setMem_other s m hb]
    exact h b'

/-- Writing a cell of a memory keeps the form. -/
theorem State.memWf_setCell {s : State} {b : Bank} {i : Nat} (v : Byte) (hi : i < b.size) (h : s.memWf = true) :
    (s.setCell b i v).memWf = true :=
  State.memWf_setMem (cellsWf_insert v (Nat.zero_le i) hi ((State.memWf_iff s).mp h b)) h

/-- Writing consecutive cells within a memory keeps the form. -/
theorem State.memWf_setCells {s : State} {b : Bank} {i : Nat} (vs : List Byte) (hi : i + vs.length ≤ b.size)
    (h : s.memWf = true) : (s.setCells b i vs).memWf = true := by
  induction vs generalizing s i with
  | nil => exact h
  | cons v vs ih =>
    rw [List.length_cons] at hi
    exact ih (by omega) (State.memWf_setCell v (by omega) h)

/-- Losing the contents of memories keeps the form. -/
theorem State.memWf_loseBanks {s : State} (d : Nat) (bs : List Bank) (h : s.memWf = true) :
    (s.loseBanks d bs).memWf = true := by
  induction bs generalizing s with
  | nil => exact h
  | cons b bs ih => exact ih (State.memWf_setMem (Memory.wf_unspecified _ _) h)

/-- What losing the contents of some memories does: those are unspecified, the others as before. -/
theorem State.mem_loseBanks (s : State) (d : Nat) (bs : List Bank) (b : Bank) :
    (s.loseBanks d bs).mem b = if b ∈ bs then Memory.unspecified d else s.mem b := by
  induction bs generalizing s with
  | nil => simp [State.loseBanks]
  | cons c bs ih =>
    rw [State.loseBanks, ih]
    by_cases h1 : b ∈ bs
    · simp [h1]
    · by_cases h2 : b = c
      · subst h2
        simp [h1]
      · simp [h1, h2, State.mem_setMem_other s _ h2]

/-! ### Bits of BIN -/

/-- Bit `i` of a written BIN byte: the pixel if there is one, else the bit as it was (R201, R202). -/
theorem getLsbD_binByte (black : Nat → Bool) (pixels : Nat) (old : Byte) (j i : Nat) (hi : i < 8) :
    (binByte black pixels old j).getLsbD i =
      if 8 * j + i < pixels then black (8 * j + i) else old.getLsbD i := by
  simp only [binByte, BitVec.getLsbD_setWidth, hi, decide_true, Bool.true_and, BitVec.getLsbD_ofBoolListLE]
  simp [List.getD_eq_getElem?_getD, List.getElem?_range hi]

end Sys2Proof.Machine
end

