-- ==== Sys2Proof/Laws/Ops.lean ====
section
/-!
SUPPORT. One lemma per shared operation that says everything it can do: the bus primitives, the events, the engine's turn,
a step, and the meanings of the commands that have more than one outcome.
-/

namespace Sys2Proof.Machine

/-! ### The host primitives -/

/-- Everything a host read can do (R70). -/
theorem State.memRead_cases (s : State) (off : Offset) (w : Width) :
    (accessOk off.toNat w = false ∧ s.memRead off w = s.withReply .busError) ∨
    (accessOk off.toNat w = true ∧ regionOf off.toNat = .regs ∧
      s.memRead off w = s.withReply (.data (s.readReg off.toNat))) ∨
    (accessOk off.toNat w = true ∧ s.busy = true ∧ (∃ b i, regionOf off.toNat = .cell b i) ∧
      s.memRead off w = s.drawn.withReply (.data (s.busyRead w.bytes))) ∨
    (∃ b i, accessOk off.toNat w = true ∧ s.busy = false ∧ regionOf off.toNat = .cell b i ∧
      s.memRead off w = s.withReply (.data (s.readCells b i w.bytes))) := by
  cases hok : accessOk off.toNat w with
  | false => exact .inl ⟨rfl, by simp [State.memRead, hok]⟩
  | true =>
    right
    cases hr : regionOf off.toNat with
    | regs => exact .inl ⟨rfl, rfl, by simp [State.memRead, hok, hr]⟩
    | unmapped => simp [accessOk, hr] at hok
    | cell b i =>
      right
      cases hb : s.busy with
      | true => exact .inl ⟨rfl, rfl, ⟨b, i, rfl⟩, by simp [State.memRead, hok, hr, hb]⟩
      | false => exact .inr ⟨b, i, rfl, rfl, rfl, by simp [State.memRead, hok, hr, hb]⟩

/-- Everything a host write can do (R70). -/
theorem State.memWrite_cases (s : State) (off : Offset) (w : Width) (v : Word) :
    (accessOk off.toNat w = false ∧ s.memWrite off w v = s.withReply .busError) ∨
    (accessOk off.toNat w = true ∧ s.busy = true ∧ s.memWrite off w v = s.protocolError.withReply .accepted) ∨
    (accessOk off.toNat w = true ∧ s.busy = false ∧ regionOf off.toNat = .regs ∧
      s.memWrite off w v = (s.writeReg off.toNat v).withReply .accepted) ∨
    (∃ b i, accessOk off.toNat w = true ∧ s.busy = false ∧ regionOf off.toNat = .cell b i ∧
      s.memWrite off w v = (s.hostStore b i w v).withReply .accepted) := by
  cases hok : accessOk off.toNat w with
  | false => exact .inl ⟨rfl, by simp [State.memWrite, hok]⟩
  | true =>
    right
    cases hb : s.busy with
    | true => exact .inl ⟨rfl, rfl, by simp [State.memWrite, hok, hb]⟩
    | false =>
      right
      cases hr : regionOf off.toNat with
      | regs => exact .inl ⟨rfl, rfl, rfl, by simp [State.memWrite, hok, hb, hr]⟩
      | unmapped => simp [accessOk, hr] at hok
      | cell b i => exact .inr ⟨b, i, rfl, rfl, rfl, by simp [State.memWrite, hok, hb, hr]⟩

/-- While BUSY = 0 a read of STATUS gives the ERR register (R25). -/
@[simp] theorem State.errRead_idle {s : State} (h : s.busy = false) : s.errRead = s.err := by
  simp [State.errRead, h]

/-- While BUSY = 1 a read of STATUS gives the code from before the command (R256). -/
@[simp] theorem State.errRead_busy {s : State} (h : s.busy = true) : s.errRead = s.errBefore := by
  simp [State.errRead, h]

/-- Acceptance does not change what a read of ERR gives (R256). -/
theorem State.errRead_accept {s : State} (w : Word) (h : s.busy = false) : (s.accept w).errRead = s.errRead := by
  rw [State.errRead_idle h]; rfl

/-- A host store changes one memory, and never SYN (R69, R70). -/
theorem State.hostStore_cases (s : State) (b : Bank) (i : Nat) (w : Width) (v : Word) :
    (b = .syn ∧ s.hostStore b i w v = s) ∨ (b ≠ .syn ∧ s.hostStore b i w v = s.setCells b i (bytesOf v w)) := by
  cases b
  · exact .inr ⟨by decide, rfl⟩
  · exact .inl ⟨rfl, rfl⟩
  · exact .inr ⟨by decide, rfl⟩
  · exact .inr ⟨by decide, rfl⟩

/-- Everything a host write to a register can do: one of the seven writable registers takes it, else nothing (R44, R69). -/
theorem State.writeReg_cases (s : State) (off : Nat) (v : Word) :
    (off = 0x04 ∧ s.writeReg off v = { s with ie := v.getLsbD 0 }) ∨
    (off = 0x08 ∧ s.writeReg off v = s.writeStatus v) ∨
    (off = 0x0C ∧ s.writeReg off v = s.accept v) ∨
    (off = 0x14 ∧ s.writeReg off v = { s with rsN := v.setWidth 8 }) ∨
    (off = 0x18 ∧ s.writeReg off v = { s with rsK := v.setWidth 8 }) ∨
    (off = 0x20 ∧ s.writeReg off v = { s with imgW := v.setWidth 13 }) ∨
    (off = 0x24 ∧ s.writeReg off v = { s with imgH := v.setWidth 13 }) ∨
    s.writeReg off v = s := by
  unfold State.writeReg
  split <;> simp

/-- The address map as ranges (R60): the offset of a memory's cell is its base plus its index. -/
theorem regionOf_cell {off : Nat} {b : Bank} {i : Nat} (h : regionOf off = .cell b i) :
    off = b.base + i ∧ i < b.size := by
  unfold regionOf at h
  simp only [Bank.covers, Bool.and_eq_true, decide_eq_true_eq] at h
  split_ifs at h with h0 h1 h2 h3 h4 <;>
    · injection h with hb hi
      subst hb hi
      omega

theorem bytesOf_length (v : Word) (w : Width) : (bytesOf v w).length = w.bytes := by
  simp [bytesOf]

/-- An accepted access to a memory lies within it (R66: it cannot straddle an end). -/
theorem accessOk_within {off : Nat} {w : Width} {b : Bank} {i : Nat} (hok : accessOk off w = true)
    (h : regionOf off = .cell b i) : i + w.bytes ≤ b.size := by
  obtain ⟨ho, hi⟩ := regionOf_cell h
  have ha : off % w.bytes = 0 := by
    simp only [accessOk, aligned, Bool.and_eq_true, beq_iff_eq] at hok
    exact hok.1
  subst ho
  cases w <;> cases b <;> simp only [Width.bytes, Bank.size, Bank.base, Config.maxPixels] at * <;> omega

/-! ### The engine -/

/-- Everything the engine's turn can do (R94, R261). -/
theorem engineTurn_cases (s : State) :
    (s.busy = false ∧ engineTurn s = .next s) ∨
    (∃ e, s.busy = true ∧ decode s.fetch = .error e ∧ engineTurn s = .next (s.raise .illegalCommand)) ∨
    (∃ i, s.busy = true ∧ decode s.fetch = .ok i ∧ engineTurn s = exec i s) := by
  cases hb : s.busy with
  | false => exact .inl ⟨rfl, by simp [engineTurn, hb]⟩
  | true =>
    right
    cases hd : decode s.fetch with
    | error e => exact .inl ⟨e, rfl, rfl, by simp [engineTurn, hb, hd]⟩
    | ok i => exact .inr ⟨i, rfl, rfl, by simp [engineTurn, hb, hd]⟩

/-- Everything RSSYN can do (R163). -/
theorem execRssyn_cases (s : State) :
    (s.blockLegal = false ∧ execRssyn s = .next (s.raise .badConfig)) ∨
    (s.blockLegal = true ∧
      execRssyn s = .next (s.storeSyndromes.setRsStat (allZero s.blockSyndromes) 0).complete) := by
  cases h : s.blockLegal with
  | false => exact .inl ⟨rfl, by simp [execRssyn, h]⟩
  | true => exact .inr ⟨rfl, by simp [execRssyn, h]⟩

/-- Everything RSDEC can do (R164, R177). -/
theorem execRsdec_cases (s : State) :
    (s.blockLegal = false ∧ execRsdec s = .next (s.raise .badConfig)) ∨
    (s.blockLegal = true ∧ allZero s.blockSyndromes = true ∧
      execRsdec s = .next (s.storeSyndromes.setRsStat true 0).complete) ∨
    (s.blockLegal = true ∧ allZero s.blockSyndromes = false ∧ correctBlock s.blockE s.codewords = none ∧
      execRsdec s = .next (s.storeSyndromes.raise .uncorrectableBlock)) ∨
    (∃ fixed nu, s.blockLegal = true ∧ allZero s.blockSyndromes = false ∧
      correctBlock s.blockE s.codewords = some (fixed, nu) ∧
      execRsdec s = .next ((s.storeSyndromes.setCells .cw 0 fixed).setRsStat false nu).complete) := by
  cases h : s.blockLegal with
  | false => exact .inl ⟨rfl, by simp [execRsdec, h]⟩
  | true =>
    right
    cases hz : allZero s.blockSyndromes with
    | true => exact .inl ⟨rfl, rfl, by simp [execRsdec, h, hz]⟩
    | false =>
      right
      cases hc : correctBlock s.blockE s.codewords with
      | none => exact .inl ⟨rfl, rfl, rfl, by simp [execRsdec, h, hz, hc]⟩
      | some r =>
        obtain ⟨fixed, nu⟩ := r
        exact .inr ⟨fixed, nu, rfl, rfl, rfl, by simp [execRsdec, h, hz, hc]⟩

/-- When the five tests of the decoder pass, and what it then answers (R168 to R174). -/
theorem correctBlock_some {e : Nat} {cws fixed : List Byte} {nu : Nat} (h : correctBlock e cws = some (fixed, nu)) :
    ∃ sigma omega, locatorEvaluator e (syndromes e cws) = some (sigma, omega) ∧
      pDeg sigma ≤ (tmaxOf e : Int) ∧ ((chienRoots sigma).length : Int) = pDeg sigma ∧
      (∀ beta ∈ chienRoots sigma, rootPosition beta < cws.length) ∧
      allZero (syndromes e fixed) = true ∧
      fixed = candidate cws omega (chienRoots sigma) ∧ nu = (chienRoots sigma).length := by
  unfold correctBlock at h
  split at h
  · simp at h
  · rename_i sigma omega hl
    simp only at h
    split_ifs at h with h1 h2 h3 h4
    simp only [Option.some.injEq, Prod.mk.injEq] at h
    obtain ⟨hf, hn⟩ := h
    refine ⟨sigma, omega, hl, not_lt.mp h1, not_not.mp h2, ?_, hf ▸ h4, hf.symm, hn.symm⟩
    simpa using h3

/-- Everything BINARIZE can do (R190, R191). -/
theorem execBinarize_cases (s : State) :
    (s.imageDegenerate = true ∧ execBinarize s = .next (s.raise .binarizationFailed)) ∨
    (s.imageDegenerate = false ∧ s.imageTooLarge = true ∧ execBinarize s = .next (s.raise .badConfig)) ∨
    (s.imageDegenerate = false ∧ s.imageTooLarge = false ∧
      execBinarize s = .next s.storeBinary.storeGeometry.complete) := by
  cases h : s.imageDegenerate with
  | true => exact .inl ⟨rfl, by simp [execBinarize, h]⟩
  | false =>
    right
    cases hl : s.imageTooLarge with
    | true => exact .inl ⟨rfl, rfl, by simp [execBinarize, h, hl]⟩
    | false => exact .inr ⟨rfl, rfl, by simp [execBinarize, h, hl]⟩

/-! ### Memories written by the commands -/

/-- Storing the syndromes writes `SYN[0 .. E-1]` and no other cell (R163, R176). -/
theorem State.cell_storeSyndromes (s : State) (b : Bank) (j : Nat) :
    s.storeSyndromes.cell b j =
      if b = .syn ∧ j < s.blockE then s.blockSyndromes.getD j 0 else s.cell b j := by
  by_cases hb : b = .syn
  · subst hb
    rw [State.storeSyndromes, State.cell_setCells]
    simp [State.blockSyndromes, syndromes]
  · rw [State.storeSyndromes, State.cell_setCells_otherBank s 0 j _ hb]
    simp [hb]

/-- A correction keeps the length of the block. -/
theorem candidate_length (cws : List Byte) (omega : Poly) (roots : List Byte) :
    (candidate cws omega roots).length = cws.length := by
  unfold candidate
  generalize magnitude omega roots = e
  suffices h : ∀ c : List Byte, (roots.foldl
      (fun c beta => c.modify (cws.length - 1 - rootPosition beta) fun v => gfAdd v (e beta)) c).length = c.length from
    h cws
  intro c
  induction roots generalizing c with
  | nil => rfl
  | cons r rs ih => rw [List.foldl_cons, ih, List.length_modify]

/-! ### One step -/

/-- A step with an event pending handles it. -/
theorem step_cons {s : State} {e : Event} {rest : List Event} (h : s.agenda = e :: rest) :
    step s = handleEvent e (s.withAgenda rest) := by
  simp [step, h]

/-- A step with nothing pending is the engine's turn. -/
theorem step_nil {s : State} (h : s.agenda = []) : step s = engineTurn s := by
  simp [step, h]

end Sys2Proof.Machine
end

