-- ==== Sys2Proof/Laws/PerInstr.lean ====
section
/-!
SUPPORT. Statements made of every command as syntax, one lemma per constructor of Instr.
-/

namespace Sys2Proof.Laws

/-- The command is well formed, and the four fields of its word read back as its opcode and its operand bytes, with
bits 31:24 zero (R90, R91, R97). -/
def EncodedFields.Statement (i : Instr) : Prop :=
  i.wellFormed = true ∧ opField (encode i) = i.opcode ∧ operandFieldsOf (encode i) = i.operandFields ∧
    zField (encode i) = 0

/-- The four fields of four bytes put together. -/
theorem fields_append (z b a o : Byte) :
    opField (z ++ b ++ a ++ o) = o ∧ aField (z ++ b ++ a ++ o) = a ∧ bField (z ++ b ++ a ++ o) = b ∧
      zField (z ++ b ++ a ++ o) = z := by
  refine ⟨?_, ?_, ?_, ?_⟩ <;>
    · apply BitVec.eq_of_getLsbD_eq
      intro k hk
      simp only [opField, aField, bField, zField, BitVec.getLsbD_extractLsb', BitVec.getLsbD_append, hk, decide_true,
        Bool.true_and]
      repeat' split
      all_goals first | omega | (congr 1; omega)

/-- The fields of a command's word, from the definition of its encoding. -/
theorem of_operands (i : Instr) (hw : i.wellFormed = true) (hz : i.operandFields.z = 0) :
    EncodedFields.Statement i := by
  obtain ⟨ho, ha, hb, hz'⟩ := fields_append i.operandFields.z i.operandFields.b i.operandFields.a i.opcode
  refine ⟨hw, ho, ?_, hz'.trans hz⟩
  simp only [operandFieldsOf, encode]
  rw [ha, hb, hz']

theorem EncodedFields.nop : EncodedFields.Statement .nop :=
  of_operands _ rfl rfl
theorem EncodedFields.gfadd (a b : Byte) : EncodedFields.Statement (.gfadd a b) :=
  of_operands _ rfl rfl
theorem EncodedFields.gfmul (a b : Byte) : EncodedFields.Statement (.gfmul a b) :=
  of_operands _ rfl rfl
theorem EncodedFields.gfdiv (a b : Byte) : EncodedFields.Statement (.gfdiv a b) :=
  of_operands _ rfl rfl
theorem EncodedFields.gfinv (a : Byte) : EncodedFields.Statement (.gfinv a) :=
  of_operands _ rfl rfl
theorem EncodedFields.gfexp (a : Byte) : EncodedFields.Statement (.gfexp a) :=
  of_operands _ rfl rfl
theorem EncodedFields.gflog (a : Byte) : EncodedFields.Statement (.gflog a) :=
  of_operands _ rfl rfl
theorem EncodedFields.rssyn : EncodedFields.Statement .rssyn :=
  of_operands _ rfl rfl
theorem EncodedFields.rsdec : EncodedFields.Statement .rsdec :=
  of_operands _ rfl rfl
theorem EncodedFields.binarize : EncodedFields.Statement .binarize :=
  of_operands _ rfl rfl

end Sys2Proof.Laws
end

