-- ==== Sys2Proof/Tests/Slice0.lean ====
section
/-!
SUPPORT. The model's own tests. Expected values are those of spec/95_test_vectors.md and of the examples in the rules (each theorem names
its source), never the model's own answers. Theorems named `witness_…` show, for a statement with hypotheses, a concrete state and
operands that meet all of them, at boundary values where the statement has ranges.
-/

namespace Sys2Proof.Tests

open Sys2Proof.Machine

/-! ### Helpers -/

/-- A memory whose cells `0 .. n-1` are written with `f`. -/
def listed (f : Nat → Nat) (n : Nat) : Memory := ⟨0, (List.range n).map fun i => (i, BitVec.ofNat 8 (f i))⟩

/-- The reset state with a block of `n` codewords, `k` of them data, in CW. -/
def rsState (n k : Nat) (block : List Byte) : State :=
  { State.reset with rsN := BitVec.ofNat 8 n, rsK := BitVec.ofNat 8 k, cw := ⟨0, block.mapIdx fun i v => (i, v)⟩ }

/-- The reset state with an image in LUMA. -/
def imgState (w h : Nat) (f : Nat → Nat) : State :=
  { State.reset with imgW := BitVec.ofNat 13 w, imgH := BitVec.ofNat 13 h, luma := listed f (w * h) }

/-- The state a command completes in. -/
def after (i : Instr) (s : State) : State :=
  match exec i s with
  | .next t => t
  | .fault _ => s
  | .refused _ => s

/-- The state after one step. -/
def stepped (s : State) : State :=
  match step s with
  | .next t => t
  | .fault _ => s
  | .refused _ => s

/-- The reset state with the word `w` accepted. -/
def running (w : Word) : State := State.reset.accept w

/-- The image of V-BIN1: 16 × 16, the left half 20 and the right half 200. -/
def halfImage : State := imgState 16 16 fun p => if p % 16 < 8 then 20 else 200

/-! ### Well-formedness: each check refuses an ill-formed term (R90, R91, V-ENC12 to V-ENC14) -/

theorem test_reserved_refused : (OperandFields.mk 0 0 1).reservedClear = false := by decide
theorem test_z_operand_a_refused : (OperandFields.mk 1 0 0).aFits .z = false := by decide
theorem test_z_operand_b_refused : (OperandFields.mk 0 1 0).bFits .z = false := by decide
theorem test_u_operand_b_refused : (OperandFields.mk 2 1 0).bFits .u = false := by decide
theorem test_b_reserved_refused : (OperandFields.mk 0xCA 0x53 1).fits .b = false := by decide
theorem test_b_operands_accepted : (OperandFields.mk 0xCA 0x53 0).fits .b = true := by decide

/-! ### Decoding: words written out field by field, z b a op (R90, R93; V-ENC) -/

theorem test_decode_nop : decode 0b00000000_00000000_00000000_00000000 = .ok .nop := by decide
theorem test_decode_gfadd : decode 0b00000000_11001010_01010011_00000001 = .ok (.gfadd 0x53 0xCA) := by decide
theorem test_decode_gfmul : decode 0b00000000_11001010_01010011_00000010 = .ok (.gfmul 0x53 0xCA) := by decide
theorem test_decode_gfdiv : decode 0b00000000_00000010_00000001_00000011 = .ok (.gfdiv 0x01 0x02) := by decide
theorem test_decode_gfinv : decode 0b00000000_00000000_00000010_00000100 = .ok (.gfinv 0x02) := by decide
theorem test_decode_gfexp : decode 0b00000000_00000000_00011001_00000101 = .ok (.gfexp 25) := by decide
theorem test_decode_gflog : decode 0b00000000_00000000_11111111_00000110 = .ok (.gflog 0xFF) := by decide
theorem test_decode_rssyn : decode 0b00000000_00000000_00000000_00010000 = .ok .rssyn := by decide
theorem test_decode_rsdec : decode 0b00000000_00000000_00000000_00010001 = .ok .rsdec := by decide
theorem test_decode_binarize : decode 0b00000000_00000000_00000000_00100000 = .ok .binarize := by decide

/-- V-ENC11 to V-ENC14, all fourteen words: none of these words is a command. -/
theorem test_decode_rejects :
    ([0x00000007, 0x0000000F, 0x00000012, 0x00000021, 0x000000FF, 0x01000000, 0x01CA5302, 0x80000020, 0x00000100,
      0x00010011, 0x00000120, 0x00010204, 0x00FF0005, 0x00010006] : List Nat).all
        (fun w => decodeTableWord 32 w == none) = true := by decide

theorem test_table_word : decodeTableWord 32 0x00CA5303 = some (.gfdiv 0x53 0xCA) := by decide

/-! ### GF commands (V-GF) -/

theorem test_gfadd : (after (.gfadd 0x53 0xCA) State.reset).result = 0x99 := by decide
theorem test_gfmul : (after (.gfmul 0x53 0xCA) State.reset).result = 0x8F := by decide
theorem test_gfmul_reduces : (after (.gfmul 0x02 0x80) State.reset).result = 0x1D := by decide
theorem test_gfdiv : (after (.gfdiv 0xFF 0x03) State.reset).result = 0x55 := by decide
theorem test_gfdiv_by_zero : (after (.gfdiv 0x00 0x00) State.reset).err = .gfDomain := by decide
theorem test_gfinv : (after (.gfinv 0xFF) State.reset).result = 0xFD := by decide
theorem test_gfinv_zero : (after (.gfinv 0x00) State.reset).err = .gfDomain := by decide
theorem test_gfexp : (after (.gfexp 127) State.reset).result = 0xCC := by decide
theorem test_gfexp_255 : (after (.gfexp 255) State.reset).result = 0x01 := by decide
theorem test_gflog : (after (.gflog 0x8E) State.reset).result = 0xFE := by decide
theorem test_gflog_zero_keeps_result :
    (after (.gflog 0) { State.reset with result := 0x53 }).result = 0x53 := by decide

/-! ### NOP (R113; V-BUS16) -/

theorem test_nop_status : (after .nop State.reset).statusWord = 0x00000002 := by decide
theorem test_nop_keeps_perr : (after .nop { running 0 with perr := true }).statusWord = 0x00000006 := by decide

/-! ### Reed–Solomon (R163, V-RS7c, V-RS10b) -/

/-- The example of R163. -/
theorem test_rssyn : (after .rssyn (rsState 5 3 [10, 20, 30, 40, 177])).readCells .syn 0 2 = 0x9999 := by
  decide +kernel

/-- V-RS10 (b): one error is corrected. -/
theorem test_rsdec_corrects :
    (after .rsdec (rsState 5 3 [10, 20, 30, 40, 177])).codewords = [10, 20, 30, 40, 40] := by
  decide +kernel

/-- V-RS7 (c): a root outside the block. -/
theorem test_rsdec_uncorrectable :
    (after .rsdec (rsState 7 3 [24, 209, 3, 1, 173, 142, 246])).err = .uncorrectableBlock := by
  decide +kernel

/-! ### BINARIZE (V-BIN1, V-BIN7) -/

/-- V-BIN1: RD32 0x800000. -/
theorem test_binarize_half : (after .binarize halfImage).readCells .bin 0 4 = 0x00FF00FF := by
  decide +kernel

/-- V-BIN7: overlap and unpadded rows; the first five bytes are 01 00 02 00 04. -/
theorem test_binarize_overlap :
    (after .binarize (imgState 17 16 fun p => if p % 17 = 0 then 10 else 200)).readCells .bin 0 4 = 0x00020001 := by
  decide +kernel

/-! ### Bus and registers (V-BUS) -/

/-- V-BUS4. -/
theorem test_img_w_reserved_bits : (State.reset.memWrite 0x20 .w32 0xFFFFFFFF).readReg 0x20 = 0x00001FFF := by decide

/-- V-BUS12 and V-BUS11: little-endian. -/
theorem test_little_endian :
    ((State.reset.memWrite 0x400 .w32 0x8B030201).memRead 0x402 .w16).reply = .data 0x00008B03 := by decide

/-- V-BUS8 to V-BUS10: bus errors. -/
theorem test_bus_errors :
    ([(0x100, .w32), (0x3FF, .w8), (0x600, .w8), (0x3FFFFC, .w32), (0x880000, .w8), (0xFFFFFC, .w32), (0x08, .w8),
      (0x08, .w16), (0x14, .w8), (0x0A, .w32), (0x401, .w32), (0x401, .w16)] : List (Nat × Width)).all
        (fun p => !accessOk p.1 p.2) = true := by decide

/-- V-BUS15: write 1 to clear. -/
theorem test_status_w1c :
    (({ State.reset with done := true, perr := true, err := .gfDomain }).memWrite 0x08 .w32 0xFFFFFFFF).statusWord
      = 0x00008200 := by decide

/-- V-BUS16: a write while BUSY = 1 is dropped and sets PERR. -/
theorem test_busy_write : ((running 0).memWrite 0x14 .w32 9).statusWord = 0x00000005 := by decide

/-- R110: acceptance writes 0x00 to ERR. -/
theorem test_accept_clears_err :
    (({ State.reset with err := .gfDomain, done := true }).memWrite 0x0C .w32 0).err = .success := by decide

/-- R256, D8: after GfDomain a STATUS read gives ERR 0x82 until BUSY falls; R111: then NOP has written 0x00. -/
theorem test_busy_err :
    (({ State.reset with err := .gfDomain }).accept 0).statusWord = 0x00008201 ∧
    (after .nop (({ State.reset with err := .gfDomain }).accept 0)).statusWord = 0x00000002 := by decide

/-- R252: a reset that interrupts RSDEC leaves LUMA alone and CW unspecified. -/
theorem test_reset_interrupts :
    (stepped { running 0x11 with agenda := [.reset], cw := listed id 3, luma := listed id 3 }).cw.cells = [] ∧
    (stepped { running 0x11 with agenda := [.reset], cw := listed id 3, luma := listed id 3 }).luma = listed id 3 := by
  decide

/-- P1: the step runs the command that withFetchWord places. -/
theorem test_step_runs_word :
    (stepped (State.reset.withFetchWord 32 0x00CA5302)).result = 0x8F := by decide

/-! ### Witnesses: encoding and the life of a command -/

theorem witness_DecodeInvertsEncode : (Instr.gfadd 0xFF 0x00).wellFormed = true := by decide
theorem witness_EncodeInvertsDecode : decode 0x00FFFF01 = .ok (.gfadd 0xFF 0xFF) := by decide
theorem witness_DecodeFollowsOpcodeTable :
    ∃ row ∈ opcodeTable, (0x00FFFF03 : Word) &&& row.mask = row.pattern := ⟨⟨"GFDIV", 3, 0xFF0000FF⟩, by decide, by decide⟩

theorem witness_StepRunsDecodedCommand :
    (running 0x11).busy = true ∧ decode (running 0x11).cmdl = .ok .rsdec ∧ (running 0x11).engineNext [] :=
  ⟨rfl, by decide, .inr ⟨rfl, rfl⟩⟩

theorem witness_StepRunsDecodedCommand_pending :
    ({ running 0x11 with agenda := [.engine, .reset] } : State).engineNext [.reset] := .inl rfl

theorem witness_IllegalWordCompletesWithError :
    ({ State.reset with agenda := cmdWrite 0x07 :: .engine :: [] } : State).busy = false ∧
    (∀ row ∈ opcodeTable, (0x07 : Word) &&& row.mask ≠ row.pattern) := by decide

theorem witness_CommandAcceptance :
    ({ State.reset with agenda := [cmdWrite 0x20] } : State).busy = false ∧
    ({ running 0 with agenda := [cmdWrite 0x20] } : State).busy = true := ⟨rfl, rfl⟩

theorem witness_NopCompletes : State.reset.perr = false := rfl

/-! ### Witnesses: GF(256) and polynomials -/

theorem witness_formatB :
    opField 0x00CA5301 = 0x01 ∧ opField 0x00CA5302 = 0x02 ∧ opField 0x00CA5303 = 0x03 ∧ zField 0x00CA5301 = 0 ∧
      zField 0x00CA5302 = 0 ∧ zField 0x00CA5303 = 0 ∧ (0xCA : Byte) ≠ 0 := by decide

theorem witness_formatU :
    opField 0x0000FF04 = 0x04 ∧ opField 0x0000FF05 = 0x05 ∧ opField 0x0000FF06 = 0x06 ∧ bField 0x0000FF04 = 0 ∧
      bField 0x0000FF05 = 0 ∧ bField 0x0000FF06 = 0 ∧ zField 0x0000FF04 = 0 ∧ zField 0x0000FF05 = 0 ∧
      zField 0x0000FF06 = 0 ∧ (0xFF : Byte) ≠ 0 := by decide

theorem witness_ExpLogTables : (0 : Nat) < 254 ∧ (253 : Nat) < 254 ∧ expTable 254 = 0x8E ∧ (0xFF : Byte) ≠ 0 := by decide

theorem witness_GfFieldLaws : (0x01 : Byte) ≠ 0 ∧ (0xFF : Byte) ≠ 0 ∧ gfLog (gfExp 254) = 254 ∧ gfLog (gfExp 0) = 0 := by
  decide

theorem witness_PolynomialEvaluation : ∀ i, pCoef [0, 0] i = 0
  | 0 => rfl
  | 1 => rfl
  | _ + 2 => rfl

theorem witness_RootBound : 0 ≤ pDeg [1, 1] ∧ chienRoots [1, 1] = [1] := by decide +kernel

theorem witness_LongDivision : 0 ≤ pDeg [1, 1] ∧ 0 ≤ pDeg [7] ∧ pDeg [5] < pDeg [1, 1] := by decide

/-! ### Witnesses: Reed–Solomon -/

theorem witness_EuclidKeyEquation : ([153, 153] : Poly).length ≤ 2 ∧ ([] : Poly).length ≤ 0 := by decide

theorem witness_ChienRootsAndForneyDenominator : (1 : Byte) ∈ chienRoots [1, 1] := by decide +kernel

theorem witness_SyndromesAreEvaluations : 0 < ([9, 8, 7, 6] : List Byte).length ∧ (0 : Nat) < 1 := by decide

/-- V-RS11: legal extremes and illegal pairs. -/
theorem witness_BlockConfiguration :
    (rsState 2 1 []).blockLegal = true ∧ (rsState 255 1 []).blockLegal = true ∧ (rsState 255 254 []).blockLegal = true ∧
    (rsState 26 26 []).blockLegal = false ∧ (rsState 26 0 []).blockLegal = false ∧ (rsState 0 5 []).blockLegal = false := by
  decide

theorem witness_RssynCompletes :
    (rsState 5 3 [0x0A, 0x14, 0x1E, 0x28, 0xB1]).rsN = 5 ∧ (rsState 5 3 [0x0A, 0x14, 0x1E, 0x28, 0xB1]).rsK = 3 ∧
    (rsState 5 3 [0x0A, 0x14, 0x1E, 0x28, 0xB1]).blockLegal = true ∧
    (rsState 5 3 [0x0A, 0x14, 0x1E, 0x28, 0xB1]).codewords = [0x0A, 0x14, 0x1E, 0x28, 0xB1] ∧
    exec .rssyn (rsState 5 3 [0x0A, 0x14, 0x1E, 0x28, 0xB1]) =
      .next (after .rssyn (rsState 5 3 [0x0A, 0x14, 0x1E, 0x28, 0xB1])) :=
  ⟨rfl, rfl, by decide, by decide, rfl⟩

/-- V-RS10 (a): with E = 1 this block is a codeword. -/
theorem witness_RsdecAcceptsCleanBlock :
    (rsState 4 3 [9, 8, 7, 6]).blockLegal = true ∧
      isCodeword (rsState 4 3 [9, 8, 7, 6]).blockE (rsState 4 3 [9, 8, 7, 6]).codewords := by
  refine ⟨by decide, ?_⟩
  unfold isCodeword
  decide +kernel

/-- Each of the four outcomes of R177 occurs (V-RS11, V-RS10 a, V-RS10 b). -/
theorem witness_RsdecOutcomes :
    (after .rsdec State.reset).err = .badConfig ∧
    (after .rsdec (rsState 4 3 [9, 8, 7, 6])).synz = true ∧
    (after .rsdec (rsState 5 3 [10, 20, 30, 40, 177])).nerr = 1 ∧
    (after .rsdec (rsState 4 3 [13, 8, 7, 6])).err = .uncorrectableBlock := by
  decide +kernel

theorem witness_RsdecSuccessLeavesCodeword : (rsState 5 3 [11, 21, 30, 40, 40]).blockLegal = true := by decide

/-- V-RS10 (b): the damaged block is at distance 1 = tmax from the codeword. -/
theorem witness_RsdecCorrectsUpToTmax :
    (rsState 5 3 [10, 20, 30, 40, 177]).blockLegal = true ∧
    ([10, 20, 30, 40, 40] : List Byte).length = (rsState 5 3 [10, 20, 30, 40, 177]).blockN ∧
    isCodeword 2 [10, 20, 30, 40, 40] ∧ (rsState 5 3 [10, 20, 30, 40, 177]).blockE = 2 ∧
    distance [10, 20, 30, 40, 40] (rsState 5 3 [10, 20, 30, 40, 177]).codewords = 1 := by
  refine ⟨by decide, by decide, ?_, by decide, by decide +kernel⟩
  unfold isCodeword
  decide +kernel

/-- The other end of the range: a block at distance 0 from a codeword (V-RS10 a, where `tmax` is 0). -/
theorem witness_RsdecCorrectsUpToTmax_clean :
    distance [9, 8, 7, 6] (rsState 4 3 [9, 8, 7, 6]).codewords = 0 ∧ (rsState 4 3 [9, 8, 7, 6]).blockE / 2 = 0 ∧
    (after .rsdec (rsState 4 3 [9, 8, 7, 6])).synz = true := by decide +kernel

theorem witness_RsdecTwice_success :
    exec .rsdec (rsState 4 3 [9, 8, 7, 6]) = .next (after .rsdec (rsState 4 3 [9, 8, 7, 6])) ∧
    exec .rsdec (after .rsdec (rsState 4 3 [9, 8, 7, 6])) =
      .next (after .rsdec (after .rsdec (rsState 4 3 [9, 8, 7, 6]))) ∧
    (after .rsdec (rsState 4 3 [9, 8, 7, 6])).err = .success :=
  ⟨rfl, rfl, by decide +kernel⟩

theorem witness_RsdecTwice_failure :
    exec .rsdec (rsState 4 3 [13, 8, 7, 6]) = .next (after .rsdec (rsState 4 3 [13, 8, 7, 6])) ∧
    exec .rsdec (after .rsdec (rsState 4 3 [13, 8, 7, 6])) =
      .next (after .rsdec (after .rsdec (rsState 4 3 [13, 8, 7, 6]))) ∧
    (after .rsdec (rsState 4 3 [13, 8, 7, 6])).err = .uncorrectableBlock :=
  ⟨rfl, rfl, by decide +kernel⟩

/-! ### Witnesses: binarizer -/

/-- V-BIN13: refused sizes, and the legal extremes. -/
theorem witness_BinarizeRefusals :
    (imgState 15 16 id).imgW.toNat < 16 ∧ (imgState 16 15 id).imgH.toNat < 16 ∧ State.reset.imgW.toNat < 16 ∧
    4194304 < (BitVec.ofNat 13 2048).toNat * (BitVec.ofNat 13 2049).toNat ∧
    16 ≤ (BitVec.ofNat 13 2048).toNat ∧ 16 ≤ (BitVec.ofNat 13 2049).toNat := by decide

theorem witness_BinarizeComputesThresholdedImage :
    16 ≤ halfImage.imgW.toNat ∧ 16 ≤ halfImage.imgH.toNat ∧ halfImage.imgW.toNat * halfImage.imgH.toNat ≤ 4194304 ∧
    16 ≤ (BitVec.ofNat 13 2048).toNat ∧ (BitVec.ofNat 13 2048).toNat * (BitVec.ofNat 13 2048).toNat ≤ 4194304 := by decide

/-- V-BIN1: the one block has minimum 20 and maximum 200, so its threshold is 121. -/
theorem witness_ObeysRawRules : ObeysRawRules halfImage.lumaAt 16 16 (fun _ _ => 121) := by
  intro bx by' hx hy
  have hx' : bx < 1 := hx
  have hy' : by' < 1 := hy
  obtain rfl : bx = 0 := by omega
  obtain rfl : by' = 0 := by omega
  decide +kernel

theorem witness_RawThresholdsUnique : 0 < blocksAlong 16 (blockSize 16 16) ∧ blockSize 16 16 = 16 := by decide

theorem witness_BlockRangeIsMinMax : (∀ p : Nat, (fun _ : Nat => 255) p ≤ 255) ∧ 16 ≤ 16 ∧ 16 ≤ 17 :=
  ⟨fun _ => le_refl 255, le_refl 16, by decide⟩

/-- R196: the cap starts to act between the midpoints 232 and 233 (V-BIN11). -/
theorem witness_ThresholdsAreBytes :
    (210 + 255) / 2 = 232 ∧ (211 + 255) / 2 = 233 ∧ highThreshold ⟨210, 255⟩ = 255 ∧ highThreshold ⟨211, 255⟩ = 255 := by
  decide

/-- V-BIN7: pixel 0 is in block 0, pixels 1 and 16 in the clipped last block. -/
theorem witness_PixelLiesInItsBlock :
    1 ≤ 16 ∧ 16 ≤ 17 ∧ blockOf 0 17 16 = 0 ∧ blockOf 1 17 16 = 1 ∧ blockOf 16 17 16 = 1 := by decide

theorem witness_BlackAndWhiteImage :
    ∀ p < 16 * 16, (imgState 16 16 fun p => if p % 16 < 8 then 0 else 255).lumaAt p = 0 ∨
      (imgState 16 16 fun p => if p % 16 < 8 then 0 else 255).lumaAt p = 255 := by decide +kernel

theorem witness_UniformImage : ∀ p < 16 * 16, (imgState 16 16 fun _ => 100).lumaAt p = 100 := by decide +kernel

theorem witness_BinarizeTwice :
    exec .binarize halfImage = .next (after .binarize halfImage) ∧
    exec .binarize (after .binarize halfImage) = .next (after .binarize (after .binarize halfImage)) := ⟨rfl, rfl⟩

/-! ### Witnesses: bus, interrupt, reset, the whole machine -/

/-- The edges of the address map (R60). -/
theorem witness_RefusedAccessesChangeNothing :
    ([(0xFC, .w32), (0x400, .w8), (0x5FF, .w8), (0x400000, .w16), (0x7FFFFC, .w32), (0x800000, .w8),
      (0x87FFFF, .w8)] : List (Nat × Width)).all (fun p => accessOk p.1 p.2) = true ∧
    ([(0x100, .w32), (0x3FC, .w32), (0x600, .w8), (0x3FFFFF, .w8), (0x880000, .w32),
      (0xFD, .w8)] : List (Nat × Width)).all (fun p => !accessOk p.1 p.2) = true := by decide

theorem witness_BusyHostAccess :
    (running 0).busy = true ∧ accessOk (0x2C : Offset).toNat .w32 = true ∧ accessOk (0x400 : Offset).toNat .w8 = true := by
  decide

/-- A host read leaves the command running. -/
theorem witness_BusyHostAccess_running :
    (stepped { running 0 with agenda := [.read 0x08 .w32] }).busy = true ∧ State.reset.busy = false := by decide

theorem witness_ReadsAndWritesRepeat : State.reset.busy = false ∧ (0x08 : Offset).toNat ≠ 0x0C := by decide

theorem witness_LittleEndianAccess :
    State.reset.busy = false ∧ (0x4FC : Offset).toNat = Bank.cw.base + 252 ∧ 252 + Width.w32.bytes ≤ Bank.cw.size ∧
    (0x4FC : Offset).toNat % Width.w32.bytes = 0 ∧ (0x87FFFF : Offset).toNat = Bank.bin.base + 524287 ∧
    524287 + Width.w8.bytes ≤ Bank.bin.size ∧ Bank.cw ≠ Bank.syn := by decide

theorem witness_BinPixelLayout : (0 : Nat) < 32 ∧ (31 : Nat) < 32 := by decide

theorem witness_RegisterReadBack : State.reset.busy = false := rfl

theorem witness_ReadOnlyPlacesIgnoreWrites :
    (0x2C : Offset).toNat ∈ [0x00, 0x10, 0x1C, 0x28, 0x2C] ∧ 0x30 ≤ (0xFC : Offset).toNat ∧
    (0xFC : Offset).toNat % 4 = 0 ∧ 0x500 ≤ (0x5FE : Offset).toNat ∧ (0x5FE : Offset).toNat < 0x600 ∧
    (0x5FE : Offset).toNat % Width.w16.bytes = 0 := by decide

theorem witness_ReservedRegisters :
    0x30 ≤ (0x30 : Offset).toNat ∧ (0xFC : Offset).toNat < 0x100 ∧ 0x100 ≤ (0x100 : Offset).toNat ∧
    (0x3FC : Offset).toNat < 0x400 ∧ (0x3FC : Offset).toNat % 4 = 0 := by decide

theorem witness_InterruptLine :
    (0x00000006 : Word).getLsbD 1 = true ∧ (0x00000006 : Word).getLsbD 0 = false ∧ (0x00000001 : Word).getLsbD 0 = true ∧
    exec .nop State.reset = .next (after .nop State.reset) := ⟨by decide, by decide, by decide, rfl⟩

/-- The completion of an illegal word raises the line when IE = 1 (R41, R94, R112). -/
theorem witness_InterruptLine_illegal :
    ({ running 0x07 with ie := true } : State).busy = true ∧ (stepped { running 0x07 with ie := true }).irq = true :=
  ⟨rfl, by decide⟩

theorem witness_ErrorsPerCommand :
    (running 0x07).busy = true ∧ decode (running 0x07).cmdl = .error (.unknownOpcode 0x07) ∧
    engineTurn (running 0x07) = .next (stepped (running 0x07)) := ⟨rfl, by decide, rfl⟩

/-- A block with one error, with SYN and BIN written before. -/
def damaged : State := { rsState 5 3 [10, 20, 30, 40, 177] with syn := listed (fun _ => 0) 2 }

/-- Every result location is changed by its own command. -/
theorem witness_ResultsBelongToTheirCommands :
    (after (.gfadd 1 2) State.reset).result ≠ State.reset.result ∧
    (after .rsdec damaged).nerr ≠ damaged.nerr ∧
    (after .rsdec damaged).cell .syn 0 ≠ damaged.cell .syn 0 ∧
    (after .rsdec damaged).cell .cw 4 ≠ damaged.cell .cw 4 := by decide +kernel

theorem witness_ResultsBelongToTheirCommands_bin :
    (after .binarize { halfImage with bin := listed (fun _ => 0) 1 }).cell .bin 0 ≠
      ({ halfImage with bin := listed (fun _ => 0) 1 } : State).cell .bin 0 := by decide +kernel

theorem witness_ResultDependsOnInputsOnly :
    damaged.sameInputs { damaged with perr := true, ie := true, result := 7, cmdl := 9 } ∧
    exec .rsdec damaged = .next (after .rsdec damaged) :=
  ⟨⟨rfl, rfl, rfl, rfl, fun b i => by cases b <;> rfl⟩, rfl⟩

theorem witness_ResetAbandonsCommand :
    ({ running 0x20 with agenda := [.reset] } : State).busy = true ∧
    decode ({ running 0x20 with agenda := [.reset] } : State).cmdl = .ok .binarize ∧
    decode (running 0x10).cmdl = .ok .rssyn ∧ decode (running 0x11).cmdl = .ok .rsdec := by decide

theorem witness_ResetAbandonsCommand_power :
    ({ running 0x20 with agenda := [.powerOn] } : State).agenda = .powerOn :: [] := rfl

/-- A running command meets the invariant, and its step completes it. -/
theorem witness_StepKeepsInv : (running 0).Inv ∧ step (running 0) = .next (stepped (running 0)) :=
  ⟨{ memories := rfl
     running := fun _ => ⟨rfl, rfl⟩
     errorCount := by decide
     cleanBlock := fun h => absurd h (by decide)
     geometry := .inl ⟨rfl, rfl, rfl⟩
     fresh := by unfold State.drawsFresh; decide }, rfl⟩

theorem witness_RunningCommandCompletes :
    (running 0x20).busy = true ∧ (running 0x20).engineNext [] ∧
    ({ running 0x20 with agenda := [.read 0x08 .w32, .engine] } : State).busy = true := ⟨rfl, .inr ⟨rfl, rfl⟩, rfl⟩

/-- Each flag changes at its own event. -/
theorem witness_OnlyTheseEventsChangeFlags_falls :
    (stepped { State.reset with perr := true, agenda := [.write 0x08 .w32 4] }).perr = false ∧
    (stepped { State.reset with perr := true, agenda := [.reset] }).perr = false ∧
    (stepped { running 0 with agenda := [.engine] }).busy = false ∧
    (stepped { running 0 with agenda := [.powerOn] }).busy = false ∧
    (stepped { State.reset with done := true, agenda := [cmdWrite 0] }).done = false ∧
    (stepped { State.reset with done := true, agenda := [.write 0x08 .w32 2] }).done = false ∧
    (stepped { State.reset with done := true, agenda := [.reset] }).done = false ∧
    (stepped { State.reset with ie := true, agenda := [.write 0x04 .w32 0] }).ie = false := by decide

theorem witness_OnlyTheseEventsChangeFlags :
    (stepped { running 0 with agenda := [.write 0x14 .w32 9] }).perr = true ∧
    (stepped { State.reset with agenda := [cmdWrite 0x20] }).busy = true ∧
    (stepped (running 0)).done = true ∧
    (stepped { State.reset with agenda := [.write 0x04 .w32 1] }).ie = true := by decide

theorem witness_OnlyHostWritesChangeLuma :
    (stepped { State.reset with luma := listed id 4, agenda := [.write 0x400000 .w32 0xFFFFFFFF] }).cell .luma 3 ≠
      ({ State.reset with luma := listed id 4, agenda := [.write 0x400000 .w32 0xFFFFFFFF] } : State).cell .luma 3 := by
  decide

end Sys2Proof.Tests
end

section
/-!
PROOFS. The state and the bus: what a read, a write, a completion and a step do, and the statements about registers, flags, LUMA and
the invariant.
-/

namespace Sys2Proof.Machine

/-! ### Register words as bit vectors -/

/-- A field below reserved bits reads zero-extended (R44). -/
theorem zeros_append {n m : Nat} (x : BitVec m) : zeros n ++ x = x.setWidth (n + m) := by
  apply BitVec.eq_of_getLsbD_eq
  intro i hi
  rw [BitVec.getLsbD_append, BitVec.getLsbD_setWidth]
  by_cases hm : i < m
  · simp [hm, hi]
  · simp [zeros, hm, BitVec.getLsbD_of_ge x i (not_lt.mp hm)]

/-- The value of two fields side by side. -/
theorem toNat_append_eq_add {m n : Nat} (x : BitVec m) (y : BitVec n) : (x ++ y).toNat = x.toNat * 2 ^ n + y.toNat := by
  rw [BitVec.toNat_append, ← Nat.shiftLeft_add_eq_or_of_lt y.isLt, Nat.shiftLeft_eq]

/-- Keeping the low `k` bits of a word is masking it (R44). -/
theorem setWidth_setWidth_eq_and (v : Word) {k : Nat} (hk : k ≤ 32) :
    (v.setWidth k).setWidth 32 = v &&& BitVec.ofNat 32 (2 ^ k - 1) := by
  apply BitVec.eq_of_toNat_eq
  have hpow : 2 ^ k ≤ 2 ^ 32 := Nat.pow_le_pow_right (by decide) hk
  have hmask : 2 ^ k - 1 < 2 ^ 32 := by have := Nat.two_pow_pos k; omega
  have hlow : v.toNat % 2 ^ k < 2 ^ 32 := (Nat.mod_lt _ (Nat.two_pow_pos k)).trans_le hpow
  rw [BitVec.toNat_setWidth, BitVec.toNat_setWidth, BitVec.toNat_and, BitVec.toNat_ofNat, Nat.mod_eq_of_lt hlow,
    Nat.mod_eq_of_lt hmask, Nat.and_two_pow_sub_one_eq_mod]

theorem ofBool_getLsbD_zero (v : Word) : BitVec.ofBool (v.getLsbD 0) = v.setWidth 1 := by
  apply BitVec.eq_of_getLsbD_eq
  intro i hi
  obtain rfl : i = 0 := by omega
  simp

/-- CTRL as it reads (R24). -/
theorem State.ctrlWord_eq (s : State) : s.ctrlWord = if s.ie then 1 else 0 := by
  unfold State.ctrlWord
  cases s.ie <;> rfl

/-- RS_STAT as it reads (R30). -/
theorem State.rsStatWord_eq (s : State) :
    s.rsStatWord = (if s.synz then 0x00000100 else 0x00000000) + s.nerr.setWidth 32 := by
  apply BitVec.eq_of_toNat_eq
  have hn : s.nerr.toNat < 256 := s.nerr.isLt
  unfold State.rsStatWord
  rw [toNat_append_eq_add]
  cases s.synz <;> simp [zeros] <;> omega

/-- BIN_GRID as it reads (R34). -/
theorem State.gridWord_eq (s : State) :
    s.gridY ++ s.gridX = BitVec.ofNat 32 (s.gridX.toNat + 65536 * s.gridY.toNat) := by
  apply BitVec.eq_of_toNat_eq
  have hx : s.gridX.toNat < 65536 := s.gridX.isLt
  have hy : s.gridY.toNat < 65536 := s.gridY.isLt
  rw [toNat_append_eq_add, BitVec.toNat_ofNat]
  omega

/-- STATUS bit by bit: BUSY, DONE, PERR, five zeros, ERR, zeros (R25). -/
theorem State.getLsbD_statusWord (s : State) (i : Nat) :
    s.statusWord.getLsbD i =
      if i = 0 then s.busy else if i = 1 then s.done else if i = 2 then s.perr
      else if i < 8 then false else s.errRead.code.getLsbD (i - 8) := by
  unfold State.statusWord
  rw [BitVec.getLsbD_append, BitVec.getLsbD_append, BitVec.getLsbD_append, BitVec.getLsbD_append, BitVec.getLsbD_append]
  match i with
  | 0 | 1 | 2 => simp
  | j + 3 =>
    by_cases h5 : j < 5
    · have h8 : j + 3 < 8 := by omega
      simp [zeros, h5, h8]
    · have h8 : ¬ j + 3 < 8 := by omega
      have hj : j + 3 - 8 = j - 5 := by omega
      have herr : ¬ j - 5 < 8 → s.errRead.code.getLsbD (j - 5) = false :=
        fun h => BitVec.getLsbD_of_ge _ _ (not_lt.mp h)
      by_cases h : j - 5 < 8 <;> simp [zeros, h5, h8, hj, h, herr]

/-- The four fields of STATUS, as a host picks them out of the word (R25). -/
theorem State.statusWord_fields (s : State) :
    s.statusWord.getLsbD 0 = s.busy ∧ s.statusWord.getLsbD 1 = s.done ∧ s.statusWord.getLsbD 2 = s.perr ∧
      s.statusWord.extractLsb' 8 8 = s.errRead.code := by
  refine ⟨s.getLsbD_statusWord 0, s.getLsbD_statusWord 1, s.getLsbD_statusWord 2, ?_⟩
  apply BitVec.eq_of_getLsbD_eq
  intro i hi
  have h1 : ¬ 8 + i = 1 := by omega
  have h2 : ¬ 8 + i = 2 := by omega
  rw [BitVec.getLsbD_extractLsb', State.getLsbD_statusWord]
  simp [hi, h1, h2]

/-- The reserved bits of STATUS read 0 (R25, R44): the mask splits along the fields of the word. -/
theorem State.statusWord_reserved (s : State) : s.statusWord &&& 0xFFFF00F8 = 0 := by
  have hmask : (0xFFFF00F8 : Word) = 0xFFFF#16 ++ 0#8 ++ 0x1F#5 ++ 0#1 ++ 0#1 ++ 0#1 := rfl
  rw [State.statusWord, hmask]
  rw [BitVec.and_append, BitVec.and_append, BitVec.and_append, BitVec.and_append, BitVec.and_append]
  simp only [zeros, BitVec.zero_and, BitVec.and_zero]
  rfl

/-! ### Which accesses are accepted -/

theorem regionOf_regs {off : Nat} (h : off < 0x100) : regionOf off = .regs := by
  simp [regionOf, h]

/-- Nothing is mapped between the registers and CW (R35, R60). -/
theorem regionOf_gap {off : Nat} (hlo : 0x100 ≤ off) (hhi : off < 0x400) : regionOf off = .unmapped := by
  have h0 : ¬ off < 0x100 := by omega
  have hcw : ¬ 0x400 ≤ off := by omega
  have hsyn : ¬ 0x500 ≤ off := by omega
  have hluma : ¬ 0x400000 ≤ off := by omega
  have hbin : ¬ 0x800000 ≤ off := by omega
  simp [regionOf, Bank.covers, Bank.base, h0, hcw, hsyn, hluma, hbin]

theorem accessOk_reg {off : Nat} (h : off < 0x100) (ha : off % 4 = 0) : accessOk off .w32 = true := by
  simp [accessOk, aligned, Width.bytes, regionOf_regs h, ha]

theorem accessOk_unmapped {off : Nat} (w : Width) (h : regionOf off = .unmapped) : accessOk off w = false := by
  simp [accessOk, h]

/-- The registers take 32-bit accesses only (R65). -/
theorem width_of_accessOk_regs {off : Nat} {w : Width} (hok : accessOk off w = true) (h : regionOf off = .regs) :
    w = .w32 := by
  simp only [accessOk, h, Bool.and_eq_true, beq_iff_eq] at hok
  exact hok.2

/-! ### Host accesses, case by case -/

theorem State.memRead_refused (s : State) {off : Offset} {w : Width} (h : accessOk off.toNat w = false) :
    s.memRead off w = s.withReply .busError := by
  simp [State.memRead, h]

theorem State.memRead_reg (s : State) {off : Offset} (h : off.toNat < 0x100) (ha : off.toNat % 4 = 0) :
    s.memRead off .w32 = s.withReply (.data (s.readReg off.toNat)) := by
  simp [State.memRead, accessOk_reg h ha, regionOf_regs h]

/-- A read of a register gives what the register reads as, and changes nothing but the reply (R68). -/
theorem State.memRead_reg_eq (s : State) {off : Offset} {d : Word} (h : off.toNat < 0x100) (ha : off.toNat % 4 = 0)
    (hd : s.readReg off.toNat = d) : s.memRead off .w32 = { s with reply := .data d } := by
  rw [s.memRead_reg h ha, hd]
  rfl

theorem State.memWrite_refused (s : State) {off : Offset} {w : Width} (v : Word) (h : accessOk off.toNat w = false) :
    s.memWrite off w v = s.withReply .busError := by
  simp [State.memWrite, h]

theorem State.memWrite_busy {s : State} {off : Offset} {w : Width} (v : Word) (h : accessOk off.toNat w = true)
    (hb : s.busy = true) : s.memWrite off w v = s.protocolError.withReply .accepted := by
  simp [State.memWrite, h, hb]

theorem State.memWrite_reg {s : State} {off : Offset} (v : Word) (h : off.toNat < 0x100) (ha : off.toNat % 4 = 0)
    (hb : s.busy = false) : s.memWrite off .w32 v = (s.writeReg off.toNat v).withReply .accepted := by
  simp [State.memWrite, accessOk_reg h ha, regionOf_regs h, hb]

/-- A read changes nothing but the reply and the number of draws (R68, R73). -/
theorem State.memRead_frame (s : State) (off : Offset) (w : Width) :
    ∃ r d, s.draws ≤ d ∧ s.memRead off w = { s with reply := r, draws := d } := by
  rcases s.memRead_cases off w with ⟨_, h⟩ | ⟨_, _, h⟩ | ⟨_, _, _, h⟩ | ⟨_, _, _, _, _, h⟩
  · exact ⟨_, _, le_rfl, h⟩
  · exact ⟨_, _, le_rfl, h⟩
  · exact ⟨_, _, Nat.le_succ _, h⟩
  · exact ⟨_, _, le_rfl, h⟩

theorem State.readReg_reserved (s : State) {off : Nat} (h : 0x30 ≤ off) : s.readReg off = 0 := by
  unfold State.readReg
  split
  any_goals omega
  rfl

theorem State.writeReg_reserved (s : State) {off : Nat} (v : Word) (h : 0x30 ≤ off) : s.writeReg off v = s := by
  unfold State.writeReg
  split
  any_goals omega
  rfl

/-- A write to a register writes no memory. -/
@[simp] theorem State.mem_writeReg (s : State) (off : Nat) (v : Word) (b : Bank) :
    (s.writeReg off v).mem b = s.mem b := by
  rcases s.writeReg_cases off v with ⟨_, h⟩ | ⟨_, h⟩ | ⟨_, h⟩ | ⟨_, h⟩ | ⟨_, h⟩ | ⟨_, h⟩ | ⟨_, h⟩ | h <;>
    rw [h] <;> cases b <;> rfl

/-- A host store changes the addressed bytes of its memory only (R70). -/
theorem State.cell_hostStore_changed {s : State} {b b' : Bank} {i j : Nat} {w : Width} {v : Word}
    (h : (s.hostStore b i w v).cell b' j ≠ s.cell b' j) : b' = b ∧ i ≤ j ∧ j < i + w.bytes := by
  rcases s.hostStore_cases b i w v with ⟨_, hs⟩ | ⟨_, hs⟩
  · exact absurd (by rw [hs]) h
  · rw [hs] at h
    by_cases hb : b' = b
    · subst hb
      rw [State.cell_setCells, bytesOf_length] at h
      by_cases hj : i ≤ j ∧ j < i + w.bytes
      · exact ⟨rfl, hj⟩
      · exact absurd (if_neg hj) h
    · exact absurd (State.cell_setCells_otherBank s i j _ hb) h

/-! ### Operands -/

theorem State.blockLegal_iff (s : State) :
    s.blockLegal = true ↔ 1 ≤ s.blockK ∧ s.blockK < s.blockN ∧ s.blockN ≤ 255 := by
  simp only [State.blockLegal, Bool.and_eq_true, decide_eq_true_eq, and_assoc]
  rfl

/-- A block that is not degenerate has both sides at least 16 (R191 a). -/
theorem State.imageDegenerate_eq_false_iff (s : State) :
    s.imageDegenerate = false ↔ 16 ≤ s.width ∧ 16 ≤ s.height := by
  simp only [State.imageDegenerate, Bool.or_eq_false_iff, decide_eq_false_iff_not, not_lt]
  rfl

theorem State.imageTooLarge_eq_false_iff (s : State) : s.imageTooLarge = false ↔ s.width * s.height ≤ 4194304 := by
  simp only [State.imageTooLarge, decide_eq_false_iff_not, not_lt]
  rfl

@[simp] theorem State.length_codewords (s : State) : s.codewords.length = s.blockN := by
  simp [State.codewords, State.cellsFrom0]

@[simp] theorem State.length_blockSyndromes (s : State) : s.blockSyndromes.length = s.blockE := by
  simp [State.blockSyndromes, syndromes]

/-! ### What a command can leave behind -/

/-- The states in which the engine can complete a command, or an illegal word, from `s`. -/
inductive State.Completion (s : State) : State → Prop where
  /-- NOP (R113). -/
  | plain : s.Completion s.complete
  /-- A GF command that succeeds (R128 to R133). -/
  | gf (v : Byte) : s.Completion (s.completeGf v)
  /-- A failure before any write (R94, R112). -/
  | failed (e : ErrorCode) : s.Completion (s.raise e)
  /-- RSSYN, or RSDEC on a clean block (R163, R165). -/
  | syndromes (synz : Bool) (legal : s.blockLegal = true) :
      s.Completion (s.storeSyndromes.setRsStat synz 0).complete
  /-- RSDEC on a block it cannot correct (R176). -/
  | uncorrectable (legal : s.blockLegal = true) : s.Completion (s.storeSyndromes.raise .uncorrectableBlock)
  /-- RSDEC on a block it corrects (R174, R175). -/
  | corrected (fixed : List Byte) (nu : Nat) (legal : s.blockLegal = true)
      (found : correctBlock s.blockE s.codewords = some (fixed, nu)) :
      s.Completion ((s.storeSyndromes.setCells .cw 0 fixed).setRsStat false nu).complete
  /-- BINARIZE on a legal image (R201 to R203). -/
  | binarized (sides : s.imageDegenerate = false) (fits : s.imageTooLarge = false) :
      s.Completion s.storeBinary.storeGeometry.complete

/-- A GF command that refuses a zero operand completes either way (R130, R131, R133). -/
theorem State.Completion.gfUnless (s : State) (p : Prop) [Decidable p] (e : ErrorCode) (v : Byte) :
    s.Completion (if p then s.raise e else s.completeGf v) := by
  split
  · exact .failed e
  · exact .gf v

/-- Every command completes, in one of the ways listed (R111, R112). -/
theorem exec_completion (i : Instr) (s : State) : ∃ t, exec i s = .next t ∧ s.Completion t := by
  cases i with
  | nop => exact ⟨_, rfl, .plain⟩
  | gfadd a b => exact ⟨_, rfl, .gf _⟩
  | gfmul a b => exact ⟨_, rfl, .gf _⟩
  | gfdiv a b => exact ⟨_, rfl, .gfUnless s _ _ _⟩
  | gfinv a => exact ⟨_, rfl, .gfUnless s _ _ _⟩
  | gfexp a => exact ⟨_, rfl, .gf _⟩
  | gflog a => exact ⟨_, rfl, .gfUnless s _ _ _⟩
  | rssyn =>
    rcases execRssyn_cases s with ⟨_, h⟩ | ⟨hlegal, h⟩
    · exact ⟨_, h, .failed _⟩
    · exact ⟨_, h, .syndromes _ hlegal⟩
  | rsdec =>
    rcases execRsdec_cases s with ⟨_, h⟩ | ⟨hlegal, _, h⟩ | ⟨hlegal, _, _, h⟩ | ⟨fixed, nu, hlegal, _, hfound, h⟩
    · exact ⟨_, h, .failed _⟩
    · exact ⟨_, h, .syndromes _ hlegal⟩
    · exact ⟨_, h, .uncorrectable hlegal⟩
    · exact ⟨_, h, .corrected fixed nu hlegal hfound⟩
  | binarize =>
    rcases execBinarize_cases s with ⟨_, h⟩ | ⟨_, _, h⟩ | ⟨hsides, hfits, h⟩
    · exact ⟨_, h, .failed _⟩
    · exact ⟨_, h, .failed _⟩
    · exact ⟨_, h, .binarized hsides hfits⟩

/-- The engine's turn completes whatever word is running (R94, R261). -/
theorem engineTurn_completion {s : State} (hb : s.busy = true) : ∃ t, engineTurn s = .next t ∧ s.Completion t := by
  rcases engineTurn_cases s with ⟨hidle, _⟩ | ⟨_, _, _, h⟩ | ⟨i, _, _, h⟩
  · simp [hb] at hidle
  · exact ⟨_, h, .failed _⟩
  · rw [h]
    exact exec_completion i s

/-- An idle engine holds all state (R239). -/
theorem engineTurn_idle {s : State} (hb : s.busy = false) : engineTurn s = .next s := by
  simp [engineTurn, hb]

/-- The engine's turn read backwards: it held all state, or completed the running word. -/
theorem engineTurn_inv {s t : State} (h : engineTurn s = .next t) :
    (s.busy = false ∧ t = s) ∨ (s.busy = true ∧ s.Completion t) := by
  cases hb : s.busy with
  | false => exact .inl ⟨rfl, Host.Outcome.next.inj (h.symm.trans (engineTurn_idle hb))⟩
  | true =>
    obtain ⟨u, hu, hc⟩ := engineTurn_completion hb
    obtain rfl := Host.Outcome.next.inj (hu.symm.trans h)
    exact .inr ⟨rfl, hc⟩

/-- What no completion changes, and how it leaves the flags (R111, R112, R257). -/
structure State.CompletedFrom (s t : State) : Prop where
  busy : t.busy = false
  done : t.done = true
  ie : t.ie = s.ie
  perr : t.perr = s.perr
  errBefore : t.errBefore = s.errBefore
  cmdl : t.cmdl = s.cmdl
  rsN : t.rsN = s.rsN
  rsK : t.rsK = s.rsK
  imgW : t.imgW = s.imgW
  imgH : t.imgH = s.imgH
  luma : t.luma = s.luma
  agenda : t.agenda = s.agenda
  reply : t.reply = s.reply
  draws : t.draws = s.draws

/-- No store of a command but a host's goes to LUMA (R204). -/
theorem State.luma_setCells_other (s : State) {b : Bank} (i : Nat) (vs : List Byte) (h : .luma ≠ b) :
    (s.setCells b i vs).luma = s.luma :=
  s.mem_setCells_other i vs h

@[simp] theorem State.storeSyndromes_luma (s : State) : s.storeSyndromes.luma = s.luma :=
  s.luma_setCells_other _ _ (by decide)

@[simp] theorem State.storeBinary_luma (s : State) : s.storeBinary.luma = s.luma :=
  s.luma_setCells_other _ _ (by decide)

theorem State.Completion.completedFrom {s t : State} (h : s.Completion t) : s.CompletedFrom t := by
  cases h with
  | plain | gf | failed | syndromes | uncorrectable | binarized => constructor <;> simp
  | corrected fixed nu => constructor <;> simp [State.luma_setCells_other _ 0 fixed (by decide : Bank.luma ≠ .cw)]

/-- What every command leaves unchanged, whatever it is and however it completes (R257). -/
theorem exec_completedFrom {i : Instr} {s t : State} (h : exec i s = .next t) : s.CompletedFrom t := by
  obtain ⟨u, hu, hc⟩ := exec_completion i s
  obtain rfl := Host.Outcome.next.inj (hu.symm.trans h)
  exact hc.completedFrom

/-! ### What a step can do -/

/-- When the engine has the next turn, the step is that turn. -/
theorem step_engineNext {s : State} {rest : List Event} (h : s.engineNext rest) :
    step s = engineTurn (s.withAgenda rest) := by
  rcases h with ha | ⟨ha, rfl⟩
  · exact step_cons ha
  · have hs : s.withAgenda [] = s := by rw [← ha]; rfl
    rw [step_nil ha, hs]

/-- A step is the engine's turn, a host access, a reset or a loss of power, on the state with that event taken off the agenda. -/
theorem step_cases (s : State) :
    (∃ rest, s.engineNext rest ∧ step s = engineTurn (s.withAgenda rest)) ∨
    (∃ off w rest, s.agenda = .read off w :: rest ∧ step s = .next ((s.withAgenda rest).memRead off w)) ∨
    (∃ off w v rest, s.agenda = .write off w v :: rest ∧ step s = .next ((s.withAgenda rest).memWrite off w v)) ∨
    (∃ rest, s.agenda = .reset :: rest ∧ step s = .next (s.withAgenda rest).resetKeepingPower) ∨
    (∃ rest, s.agenda = .powerOn :: rest ∧ step s = .next (s.withAgenda rest).powerOn) := by
  cases ha : s.agenda with
  | nil =>
    have hnext : s.engineNext [] := .inr ⟨ha, rfl⟩
    exact .inl ⟨[], hnext, step_engineNext hnext⟩
  | cons e rest =>
    have hstep := step_cons ha
    cases e with
    | engine => exact .inl ⟨rest, .inl ha, hstep⟩
    | read off w => exact .inr (.inl ⟨off, w, rest, rfl, hstep⟩)
    | write off w v => exact .inr (.inr (.inl ⟨off, w, v, rest, rfl, hstep⟩))
    | reset => exact .inr (.inr (.inr (.inl ⟨rest, rfl, hstep⟩)))
    | powerOn => exact .inr (.inr (.inr (.inr ⟨rest, rfl, hstep⟩)))

/-! ### Block geometry (R192, R193) -/

theorem le_blockSize (w h : Nat) : 16 ≤ blockSize w h := le_max_right _ _

/-- The shorter side of an image that fits LUMA is at most 2048, so a block has at most 51 pixels along a side. -/
theorem blockSize_le {w h : Nat} (hfit : w * h ≤ 4194304) : blockSize w h ≤ 51 := by
  have hside : min w h ≤ 2048 := by
    by_contra hlong
    have hmul : 2049 * 2049 ≤ w * h := Nat.mul_le_mul (by omega) (by omega)
    omega
  change max (min w h / 40) 16 ≤ 51
  omega

/-- A side within `n` blocks' length has at most `n` blocks. -/
theorem blocksAlong_le {d size n : Nat} (hs : 1 ≤ size) (h : d ≤ n * size) : blocksAlong d size ≤ n := by
  unfold blocksAlong
  rw [← Nat.lt_succ_iff, Nat.div_lt_iff_lt_mul hs, Nat.succ_mul]
  omega

theorem one_le_blocksAlong {d size : Nat} (hs : 1 ≤ size) (h : 1 ≤ d) : 1 ≤ blocksAlong d size := by
  rw [blocksAlong, Nat.le_div_iff_mul_le hs]
  omega

/-- Any side has at most 512 blocks, since a block is at least 16 long. -/
theorem blocksAlong_side_le {d w h : Nat} (hd : d ≤ 8191) : blocksAlong d (blockSize w h) ≤ 512 := by
  have hs := le_blockSize w h
  exact blocksAlong_le (by omega) (by omega)

/-- The shorter side has at most 43 blocks: it is below `40·S + 40`, and `S` is at least 16. -/
theorem blocksAlong_shorter_le (w h : Nat) : blocksAlong (min w h) (blockSize w h) ≤ 43 := by
  have hs := le_blockSize w h
  have hm : min w h / 40 ≤ blockSize w h := le_max_left _ _
  exact blocksAlong_le (by omega) (by omega)

theorem blocks_mul_le {w h : Nat} (hw : w ≤ 8191) (hh : h ≤ 8191) :
    blocksAlong w (blockSize w h) * blocksAlong h (blockSize w h) ≤ 512 * 43 := by
  have hshort := blocksAlong_shorter_le w h
  rcases le_total w h with hle | hle
  · rw [min_eq_left hle] at hshort
    rw [Nat.mul_comm]
    exact Nat.mul_le_mul (blocksAlong_side_le hh) hshort
  · rw [min_eq_right hle] at hshort
    exact Nat.mul_le_mul (blocksAlong_side_le hw) hshort

/-- The geometry of a legal image is legal (R193). -/
theorem State.geometryWf_storeGeometry {s : State} (hsides : 16 ≤ s.width ∧ 16 ≤ s.height)
    (hfit : s.width * s.height ≤ 4194304) : s.storeGeometry.geometryWf := by
  obtain ⟨hw, hh⟩ := hsides
  have hw' : s.width ≤ 8191 := Nat.le_of_lt_succ s.imgW.isLt
  have hh' : s.height ≤ 8191 := Nat.le_of_lt_succ s.imgH.isLt
  have hs := le_blockSize s.width s.height
  have hs' := blockSize_le hfit
  have hx := one_le_blocksAlong (size := blockSize s.width s.height) (by omega) (by omega : 1 ≤ s.width)
  have hy := one_le_blocksAlong (size := blockSize s.width s.height) (by omega) (by omega : 1 ≤ s.height)
  have hx' := blocksAlong_side_le (w := s.width) (h := s.height) hw'
  have hy' := blocksAlong_side_le (w := s.width) (h := s.height) hh'
  have hxy := blocks_mul_le hw' hh'
  have h13 : (BitVec.ofNat 13 (blockSize s.width s.height)).toNat = blockSize s.width s.height :=
    Nat.mod_eq_of_lt (by omega)
  have h16x : (BitVec.ofNat 16 (blocksAlong s.width (blockSize s.width s.height))).toNat =
    blocksAlong s.width (blockSize s.width s.height) := Nat.mod_eq_of_lt (by omega)
  have h16y : (BitVec.ofNat 16 (blocksAlong s.height (blockSize s.width s.height))).toNat =
    blocksAlong s.height (blockSize s.width s.height) := Nat.mod_eq_of_lt (by omega)
  refine .inr ?_
  simp only [State.storeGeometry_blkSz, State.storeGeometry_gridX, State.storeGeometry_gridY, h13, h16x, h16y]
  exact ⟨hs, hs', hx, hx', hy, hy', hxy⟩

/-! ### The number of corrected errors -/

/-- A legal block has at most 254 error-correction codewords (R160). -/
theorem State.blockE_le {s : State} (h : s.blockLegal = true) : s.blockE ≤ 254 := by
  obtain ⟨hk, _, hn⟩ := s.blockLegal_iff.mp h
  unfold State.blockE
  omega

/-- RSDEC corrects at most `tmax` errors (R169, R171). -/
theorem correctBlock_count_le {e nu : Nat} {cws fixed : List Byte} (h : correctBlock e cws = some (fixed, nu)) :
    nu ≤ e / 2 := by
  obtain ⟨sigma, omega, _, hdeg, hroots, _, _, _, rfl⟩ := correctBlock_some h
  unfold tmaxOf at hdeg
  omega

theorem correctBlock_length {e nu : Nat} {cws fixed : List Byte} (h : correctBlock e cws = some (fixed, nu)) :
    fixed.length = cws.length := by
  obtain ⟨_, _, _, _, _, _, _, rfl, _⟩ := correctBlock_some h
  exact candidate_length ..

/-! ### What keeps the invariant -/

theorem State.drawsFresh_iff (s : State) : s.drawsFresh ↔ ∀ b : Bank, (s.mem b).epoch < s.draws := by
  constructor
  · rintro ⟨hcw, hsyn, hluma, hbin⟩ b
    cases b <;> assumption
  · intro h
    exact ⟨h .cw, h .syn, h .luma, h .bin⟩

section Inv

variable {s : State}

/-- The agenda, the reply and further draws are no part of the invariant. -/
theorem State.Inv.withBookkeeping (h : s.Inv) (evs : List Event) (r : BusReply) {d : Nat} (hd : s.draws ≤ d) :
    State.Inv { s with agenda := evs, reply := r, draws := d } where
  memories := h.memories
  running := h.running
  errorCount := h.errorCount
  cleanBlock := h.cleanBlock
  geometry := h.geometry
  fresh := by
    obtain ⟨hcw, hsyn, hluma, hbin⟩ := h.fresh
    exact ⟨hcw.trans_le hd, hsyn.trans_le hd, hluma.trans_le hd, hbin.trans_le hd⟩

theorem State.Inv.withAgenda (h : s.Inv) (evs : List Event) : (s.withAgenda evs).Inv :=
  h.withBookkeeping evs s.reply le_rfl

theorem State.Inv.withReply (h : s.Inv) (r : BusReply) : (s.withReply r).Inv :=
  h.withBookkeeping s.agenda r le_rfl

theorem State.Inv.complete (h : s.Inv) : s.complete.Inv :=
  { h with running := fun hb => Bool.noConfusion hb }

theorem State.Inv.raise (h : s.Inv) (e : ErrorCode) : (s.raise e).Inv :=
  { h with running := fun hb => Bool.noConfusion hb }

theorem State.Inv.protocolError (h : s.Inv) : s.protocolError.Inv :=
  { h with }

theorem State.Inv.setResult (h : s.Inv) (v : Byte) : (s.setResult v).Inv :=
  { h with }

/-- A new RS_STAT keeps the invariant when NERR is in range and is 0 with SYNZ (R30). -/
theorem State.Inv.setRsStat (h : s.Inv) {z : Bool} {n : Nat} (hn : n ≤ 127) (hz : z = true → n = 0) :
    (s.setRsStat z n).Inv :=
  { h with
    errorCount := (Nat.mod_le n 256).trans hn
    cleanBlock := fun hz' => by rw [State.setRsStat_nerr, hz hz']; rfl }

/-- Writing cells within a memory keeps the invariant. -/
theorem State.Inv.setCells (h : s.Inv) {b : Bank} {i : Nat} {vs : List Byte} (hi : i + vs.length ≤ b.size) :
    (s.setCells b i vs).Inv where
  memories := State.memWf_setCells vs hi h.memories
  running := by simpa using h.running
  errorCount := by simpa using h.errorCount
  cleanBlock := by simpa using h.cleanBlock
  geometry := by simpa [State.geometryWf] using h.geometry
  fresh := by
    rw [State.drawsFresh_iff]
    simpa using s.drawsFresh_iff.mp h.fresh

theorem State.Inv.hostStore (h : s.Inv) {b : Bank} {i : Nat} {w : Width} (v : Word) (hi : i + w.bytes ≤ b.size) :
    (s.hostStore b i w v).Inv := by
  rcases s.hostStore_cases b i w v with ⟨_, hs⟩ | ⟨_, hs⟩
  · rwa [hs]
  · rw [hs]
    exact h.setCells (by rwa [bytesOf_length])

/-- A register write keeps the invariant: acceptance clears DONE and ERR (R110), and DONE is only ever cleared (R25). -/
theorem State.Inv.writeReg (h : s.Inv) (off : Nat) (v : Word) : (s.writeReg off v).Inv := by
  rcases s.writeReg_cases off v with
    ⟨_, hs⟩ | ⟨_, hs⟩ | ⟨_, hs⟩ | ⟨_, hs⟩ | ⟨_, hs⟩ | ⟨_, hs⟩ | ⟨_, hs⟩ | hs <;> rw [hs]
  · exact { h with }
  · refine { h with running := fun hb => ?_ }
    obtain ⟨hdone, herr⟩ := h.running hb
    exact ⟨by simp [hdone], herr⟩
  · exact { h with running := fun _ => ⟨rfl, rfl⟩ }
  all_goals exact { h with }

theorem State.Inv.memRead (h : s.Inv) (off : Offset) (w : Width) : (s.memRead off w).Inv := by
  obtain ⟨r, d, hd, hs⟩ := s.memRead_frame off w
  rw [hs]
  exact h.withBookkeeping s.agenda r hd

theorem State.Inv.memWrite (h : s.Inv) (off : Offset) (w : Width) (v : Word) : (s.memWrite off w v).Inv := by
  rcases s.memWrite_cases off w v with ⟨_, hs⟩ | ⟨_, _, hs⟩ | ⟨_, _, _, hs⟩ | ⟨b, i, hok, _, hr, hs⟩ <;> rw [hs]
  · exact h.withReply _
  · exact h.protocolError.withReply _
  · exact (h.writeReg _ _).withReply _
  · exact (h.hostStore v (accessOk_within hok hr)).withReply _

theorem State.Inv.storeSyndromes (h : s.Inv) (hlegal : s.blockLegal = true) : s.storeSyndromes.Inv := by
  have he := State.blockE_le hlegal
  refine h.setCells ?_
  rw [State.length_blockSyndromes, Bank.size]
  omega

/-- BIN holds one bit per pixel of the largest legal image (R39). -/
theorem State.Inv.storeBinary (h : s.Inv) (hfit : s.width * s.height ≤ 4194304) : s.storeBinary.Inv := by
  refine h.setCells ?_
  rw [List.length_map, List.length_range, State.pixels, Bank.size, Config.maxPixels]
  omega

/-- However a command completes, the invariant holds after it. -/
theorem State.Completion.inv {t : State} (hc : s.Completion t) (h : s.Inv) : t.Inv := by
  cases hc with
  | plain => exact h.complete
  | gf v => exact (h.setResult v).complete
  | failed e => exact h.raise e
  | syndromes synz legal => exact ((h.storeSyndromes legal).setRsStat (by decide) (fun _ => rfl)).complete
  | uncorrectable legal => exact (h.storeSyndromes legal).raise _
  | corrected fixed nu legal found =>
    have hnu := correctBlock_count_le found
    have he := State.blockE_le legal
    obtain ⟨_, _, hn⟩ := s.blockLegal_iff.mp legal
    have hlen : 0 + fixed.length ≤ Bank.cw.size := by
      rw [correctBlock_length found, State.length_codewords, Bank.size]
      omega
    exact (((h.storeSyndromes legal).setCells hlen).setRsStat (by omega) (fun hz => Bool.noConfusion hz)).complete
  | binarized sides fits =>
    have hfit := s.imageTooLarge_eq_false_iff.mp fits
    have hgeo := State.geometryWf_storeGeometry (s := s.storeBinary)
      (by simpa [State.width, State.height] using s.imageDegenerate_eq_false_iff.mp sides)
      (by simpa [State.width, State.height] using hfit)
    exact State.Inv.complete { h.storeBinary hfit with geometry := hgeo }

theorem State.Inv.engineTurn (h : s.Inv) {t : State} (ht : engineTurn s = .next t) : t.Inv := by
  rcases engineTurn_inv ht with ⟨_, rfl⟩ | ⟨_, hc⟩
  · exact h
  · exact hc.inv h

/-- Settles O55, field by field of the reset state. -/
theorem invHoldsAtReset : Obligations.InvHoldsAtReset where
  memories := State.memWf_reset
  running := fun hb => Bool.noConfusion hb
  errorCount := by decide
  cleanBlock := fun _ => rfl
  geometry := .inl ⟨rfl, rfl, rfl⟩
  fresh := ⟨Nat.one_pos, Nat.one_pos, Nat.one_pos, Nat.one_pos⟩

/-- A reset that loses any of the memories keeps the invariant: the registers are those of the reset state, and the lost memories
hold the number just drawn (R250 to R253). -/
theorem State.Inv.resetLosing (h : s.Inv) (bs : List Bank) : ((s.loseBanks s.draws bs).resetRegisters).drawn.Inv :=
  { invHoldsAtReset with
    memories := State.memWf_loseBanks s.draws bs h.memories
    fresh := by
      rw [State.drawsFresh_iff]
      intro b
      have hold : (s.mem b).epoch < s.draws := s.drawsFresh_iff.mp h.fresh b
      simp only [State.mem_drawn, State.mem_resetRegisters, State.mem_loseBanks, State.drawn_draws,
        State.resetRegisters_draws, State.loseBanks_draws]
      split
      · exact Nat.lt_succ_self _
      · exact hold.trans (Nat.lt_succ_self _) }

end Inv

/-- Settles O56: each of the five things a step can be keeps the invariant. -/
theorem stepKeepsInv : Obligations.StepKeepsInv := by
  intro s t h ht
  rcases step_cases s with
    ⟨rest, _, hs⟩ | ⟨off, w, rest, _, hs⟩ | ⟨off, w, v, rest, _, hs⟩ | ⟨rest, _, hs⟩ | ⟨rest, _, hs⟩ <;>
    have hrest := h.withAgenda rest <;> rw [hs] at ht
  · exact hrest.engineTurn ht
  all_goals obtain rfl := Host.Outcome.next.inj ht
  · exact hrest.memRead off w
  · exact hrest.memWrite off w v
  · exact hrest.resetLosing _
  · exact hrest.resetLosing _

/-! ### The next turn of the engine (O5) -/

/-- While a word is running, the engine's turn is the meaning of the command it decodes to (R22, R40). -/
theorem engineTurn_decoded {s : State} {i : Instr} (hb : s.busy = true) (hd : decode s.cmdl = .ok i) :
    engineTurn s = exec i s := by
  rcases engineTurn_cases s with ⟨hidle, _⟩ | ⟨e, _, herr, _⟩ | ⟨j, _, hj, h⟩
  · simp [hb] at hidle
  · simp [State.fetch, hd] at herr
  · obtain rfl : i = j := by simpa [State.fetch, hd] using hj
    exact h

/-- The decoder gives back a command from its word. -/
theorem decode_encode (i : Instr) : decode (encode i) = .ok i := by
  have hfields : Laws.EncodedFields.Statement i := Laws.of_operands i (by cases i <;> rfl) (by cases i <;> rfl)
  obtain ⟨_, hop, hopds, _⟩ := hfields
  simp only [decode, hop, hopds]
  cases i <;> rfl

/-- Settles O5: taking the turn off the agenda changes neither BUSY nor the latch, and a word decodes to the command it encodes. -/
theorem stepRunsDecodedCommand : Obligations.StepRunsDecodedCommand := by
  refine ⟨fun s i rest hb hd hnext => ?_, fun s i _ => ?_⟩
  · rw [step_engineNext hnext]
    exact engineTurn_decoded hb hd
  · have hword : BitVec.ofNat 32 ((encode i).toNat % 2 ^ 32) = encode i := by
      rw [Nat.mod_eq_of_lt (encode i).isLt, BitVec.ofNat_toNat, BitVec.setWidth_eq]
    rw [State.withFetchWord, hword, step_engineNext (.inl rfl)]
    exact engineTurn_decoded rfl (decode_encode i)

/-! ### The registers as the host sees them (O46, O48, O53) -/

/-- Settles O46: a read gives the register's word, whose layout the lemmas above state; a write changes the one named field. -/
theorem registerReadBack : Obligations.RegisterReadBack := by
  refine ⟨fun s => ⟨?id, ?cmd, ?status, ?ctrl, ?result, ?rsLen, ?rsNdata, ?rsStat, ?imgW, ?imgH, ?blkSz, ?grid⟩,
    fun s v hb => ⟨⟨?ctrlWrite, ?ctrlBack⟩, ⟨?rsLenWrite, ?rsLenBack⟩, ⟨?rsNdataWrite, ?rsNdataBack⟩,
      ⟨?imgWWrite, ?imgWBack⟩, ⟨?imgHWrite, ?imgHBack⟩, ?statusBack⟩⟩
  case status =>
    obtain ⟨hbusy, hdone, hperr, herr⟩ := s.statusWord_fields
    exact ⟨s.statusWord, s.memRead_reg_eq (by decide) (by decide) rfl, hbusy, hdone, hperr, herr,
      s.statusWord_reserved, rfl⟩
  case id | cmd => exact s.memRead_reg_eq (by decide) (by decide) rfl
  case ctrl => exact s.memRead_reg_eq (by decide) (by decide) s.ctrlWord_eq
  case rsStat => exact s.memRead_reg_eq (by decide) (by decide) s.rsStatWord_eq
  case grid => exact s.memRead_reg_eq (by decide) (by decide) s.gridWord_eq
  case result | rsLen | rsNdata => exact s.memRead_reg_eq (by decide) (by decide) (zeros_append (n := 24) _)
  case imgW | imgH | blkSz => exact s.memRead_reg_eq (by decide) (by decide) (zeros_append (n := 19) _)
  all_goals rw [State.memWrite_reg v (by decide) (by decide) hb]
  case ctrlWrite | rsLenWrite | rsNdataWrite | imgWWrite | imgHWrite => rfl
  case ctrlBack =>
    change zeros 31 ++ BitVec.ofBool (v.getLsbD 0) = v &&& 0x00000001
    rw [ofBool_getLsbD_zero]
    exact (zeros_append (n := 31) _).trans (setWidth_setWidth_eq_and v (by decide))
  case rsLenBack | rsNdataBack => exact (zeros_append (n := 24) _).trans (setWidth_setWidth_eq_and v (by decide))
  case imgWBack | imgHBack => exact (zeros_append (n := 19) _).trans (setWidth_setWidth_eq_and v (by decide))
  case statusBack => exact State.statusWord_reserved _

/-- Settles O48: reserved registers by the register map, the gap by the address map. -/
theorem reservedRegisters : Obligations.ReservedRegisters := by
  refine fun s off v => ⟨fun ha hlo hhi => ⟨?_, fun hb => ?_, fun hb => ?_⟩, fun w hlo hhi => ?_⟩
  · rw [s.memRead_reg hhi ha, s.readReg_reserved hlo]
    rfl
  · rw [State.memWrite_reg v hhi ha hb, s.writeReg_reserved v hlo]
    rfl
  · exact State.memWrite_busy v (accessOk_reg hhi ha) hb
  · have hgap := accessOk_unmapped w (regionOf_gap hlo hhi)
    exact ⟨s.memRead_refused hgap, s.memWrite_refused v hgap⟩

/-- Every register but ID reads 0 after reset (R42). -/
theorem readReg_reset {off : Nat} (h : off ≠ 0) : State.reset.readReg off = 0 := by
  unfold State.readReg
  split
  any_goals rfl
  contradiction

/-- Settles O53, by evaluation: the reset block and image are illegal, so the memory commands refuse them. -/
theorem resetValues : Obligations.ResetValues :=
  ⟨rfl, fun _ _ _ h => readReg_reset h, rfl, rfl, rfl, rfl, rfl, fun b => by cases b <;> rfl, rfl, rfl, rfl⟩

/-! ### The interrupt line (O49) -/

/-- After a completion the line is IE (R41, R111, R112). -/
theorem State.CompletedFrom.irq {s t : State} (h : s.CompletedFrom t) : t.irq = s.ie := by
  rw [State.irq, h.done, h.ie, Bool.true_and]

/-- Settles O49: a completion sets DONE and keeps IE; each of the three host writes changes one of the two. -/
theorem interruptLine : Obligations.InterruptLine := by
  refine ⟨fun _ => rfl, fun i s t h => (exec_completedFrom h).irq, fun s hb => ?_, fun s v hb => ⟨?_, fun hv => ?_, fun hv => ?_,
    fun hv => ?_⟩, fun s => ⟨rfl, rfl⟩⟩
  · obtain ⟨t, ht, hc⟩ := engineTurn_completion hb
    exact ⟨t, ht, hc.completedFrom.irq⟩
  all_goals rw [State.memWrite_reg v (by decide) (by decide) hb]
  · rfl
  · change (s.done && !v.getLsbD 1 && s.ie) = false
    rw [hv, Bool.not_true, Bool.and_false, Bool.false_and]
  · change (s.done && v.getLsbD 0) = false
    rw [hv, Bool.and_false]
  · change (s.done && v.getLsbD 0) = s.done
    rw [hv, Bool.and_true]

/-! ### What changes the flags (O59) -/

/-- Everything a step can do to IE, BUSY, DONE and PERR. -/
inductive State.FlagChange (s t : State) : Prop where
  | none (ie : t.ie = s.ie) (busy : t.busy = s.busy) (done : t.done = s.done) (perr : t.perr = s.perr)
  /-- The running command completes (R111, R112). -/
  | completion (rest : List Event) (turn : s.engineNext rest) (running : s.busy = true)
      (ie : t.ie = s.ie) (busy : t.busy = false) (done : t.done = true) (perr : t.perr = s.perr)
  /-- A host write is dropped (R73). -/
  | dropped (off : Offset) (w : Width) (v : Word) (rest : List Event) (event : s.agenda = .write off w v :: rest)
      (ok : accessOk off.toNat w = true) (running : s.busy = true)
      (ie : t.ie = s.ie) (busy : t.busy = s.busy) (done : t.done = s.done) (perr : t.perr = true)
  /-- A command word is accepted (R110). -/
  | acceptance (w : Word) (rest : List Event) (event : s.agenda = cmdWrite w :: rest) (idle : s.busy = false)
      (cmdl : t.cmdl = w) (ie : t.ie = s.ie) (busy : t.busy = true) (done : t.done = false) (perr : t.perr = s.perr)
  /-- STATUS is written (R25). -/
  | statusWrite (v : Word) (rest : List Event) (event : s.agenda = .write 0x000008 .w32 v :: rest) (idle : s.busy = false)
      (ie : t.ie = s.ie) (busy : t.busy = s.busy) (done : t.done = (s.done && !v.getLsbD 1))
      (perr : t.perr = (s.perr && !v.getLsbD 2))
  /-- CTRL is written (R24). -/
  | ctrlWrite (v : Word) (rest : List Event) (event : s.agenda = .write 0x000004 .w32 v :: rest) (idle : s.busy = false)
      (ie : t.ie = v.getLsbD 0) (busy : t.busy = s.busy) (done : t.done = s.done) (perr : t.perr = s.perr)
  /-- A reset, with power kept or not (R250, R251). -/
  | reset (event : s.resetNext) (busy : t.busy = false) (done : t.done = false) (perr : t.perr = false)

/-- What the engine's turn does to the flags. -/
theorem engineTurn_flagChange {s t : State} {rest : List Event} (hnext : s.engineNext rest)
    (h : engineTurn (s.withAgenda rest) = .next t) : s.FlagChange t := by
  rcases engineTurn_inv h with ⟨_, rfl⟩ | ⟨hb, hc⟩
  · exact .none rfl rfl rfl rfl
  · have hf := hc.completedFrom
    exact .completion rest hnext hb hf.ie hf.busy hf.done hf.perr

/-- What a host write does to the flags. -/
theorem memWrite_flagChange {s : State} {off : Offset} {w : Width} {v : Word} {rest : List Event}
    (hev : s.agenda = .write off w v :: rest) : s.FlagChange ((s.withAgenda rest).memWrite off w v) := by
  rcases (s.withAgenda rest).memWrite_cases off w v with
    ⟨_, hs⟩ | ⟨hok, hb, hs⟩ | ⟨hok, hb, hr, hs⟩ | ⟨b, i, _, _, _, hs⟩ <;> rw [hs]
  · exact .none rfl rfl rfl rfl
  · exact .dropped off w v rest hev hok hb rfl rfl rfl rfl
  · obtain rfl := width_of_accessOk_regs hok hr
    rcases (s.withAgenda rest).writeReg_cases off.toNat v with
      ⟨ho, hs⟩ | ⟨ho, hs⟩ | ⟨ho, hs⟩ | ⟨_, hs⟩ | ⟨_, hs⟩ | ⟨_, hs⟩ | ⟨_, hs⟩ | hs <;> rw [hs]
    · obtain rfl : off = 0x000004 := BitVec.eq_of_toNat_eq ho
      exact .ctrlWrite v rest hev hb rfl rfl rfl rfl
    · obtain rfl : off = 0x000008 := BitVec.eq_of_toNat_eq ho
      exact .statusWrite v rest hev hb rfl rfl rfl rfl
    · obtain rfl : off = 0x00000C := BitVec.eq_of_toNat_eq ho
      exact .acceptance v rest hev hb rfl rfl rfl rfl rfl
    all_goals exact .none rfl rfl rfl rfl
  · rcases (s.withAgenda rest).hostStore_cases b i w v with ⟨_, hs⟩ | ⟨_, hs⟩ <;> rw [hs] <;>
      refine .none ?_ ?_ ?_ ?_ <;> simp

/-- Every step changes the flags in one of the listed ways only. -/
theorem step_flagChange {s t : State} (h : step s = .next t) : s.FlagChange t := by
  rcases step_cases s with
    ⟨rest, hnext, hs⟩ | ⟨off, w, rest, _, hs⟩ | ⟨off, w, v, rest, hev, hs⟩ | ⟨rest, hev, hs⟩ | ⟨rest, hev, hs⟩ <;>
    rw [hs] at h
  · exact engineTurn_flagChange hnext h
  all_goals obtain rfl := Host.Outcome.next.inj h
  · obtain ⟨r, d, _, hr⟩ := (s.withAgenda rest).memRead_frame off w
    rw [hr]
    exact .none rfl rfl rfl rfl
  · exact memWrite_flagChange hev
  · exact .reset ⟨rest, .inl hev⟩ rfl rfl rfl
  · exact .reset ⟨rest, .inr hev⟩ rfl rfl rfl

/-- Settles O59: read off the list of what a step can do to the flags. -/
theorem onlyTheseEventsChangeFlags : Obligations.OnlyTheseEventsChangeFlags := by
  intro s t h
  cases step_flagChange h with
  | completion rest turn =>
    have hturn : ∃ rest, s.engineNext rest := ⟨rest, turn⟩
    simp_all
  | none | dropped | acceptance | statusWrite | ctrlWrite | reset => simp_all

/-! ### What changes the grayscale image (O60) -/

/-- No command puts LUMA at risk, so a reset with power kept leaves it (R252, R253). -/
theorem State.luma_notAtRisk (s : State) : Bank.luma ∉ s.banksAtRisk := by
  unfold State.banksAtRisk
  split
  · split
    · rename_i i _
      cases i <;> simp [banksWritten]
    · simp
  · simp

theorem State.cell_luma_eq {s t : State} (h : t.luma = s.luma) (p : Nat) : t.cell .luma p = s.cell .luma p := by
  rw [State.cell, State.mem_luma, h]
  rfl

theorem State.resetKeepingPower_luma (s : State) : s.resetKeepingPower.luma = s.luma := by
  have h := s.mem_loseBanks s.draws s.banksAtRisk .luma
  rw [if_neg s.luma_notAtRisk] at h
  exact h

theorem engineTurn_luma {s t : State} (h : engineTurn s = .next t) : t.luma = s.luma := by
  rcases engineTurn_inv h with ⟨_, rfl⟩ | ⟨_, hc⟩
  · rfl
  · exact hc.completedFrom.luma

/-- A host write changes the cells of LUMA that it addresses, while idle, and no other. -/
theorem memWrite_luma_changed {s : State} {off : Offset} {w : Width} {v : Word} {p : Nat}
    (h : (s.memWrite off w v).cell .luma p ≠ s.cell .luma p) :
    s.busy = false ∧ 0x400000 + p < off.toNat + w.bytes ∧ off.toNat ≤ 0x400000 + p := by
  rcases s.memWrite_cases off w v with ⟨_, hs⟩ | ⟨_, _, hs⟩ | ⟨_, _, _, hs⟩ | ⟨b, i, _, hb, hr, hs⟩ <;> rw [hs] at h
  · exact absurd rfl h
  · exact absurd rfl h
  · exact absurd (State.cell_luma_eq (s.mem_writeReg off.toNat v .luma) p) h
  · obtain ⟨rfl, hlo, hhi⟩ := State.cell_hostStore_changed h
    obtain ⟨ho, _⟩ := regionOf_cell hr
    rw [Bank.base] at ho
    exact ⟨hb, by omega, by omega⟩

/-- Settles O60: of the five things a step can be, only a host write and a loss of power reach LUMA. -/
theorem onlyHostWritesChangeLuma : Obligations.OnlyHostWritesChangeLuma := by
  intro s t p h hp
  rcases step_cases s with
    ⟨rest, _, hs⟩ | ⟨off, w, rest, _, hs⟩ | ⟨off, w, v, rest, hev, hs⟩ | ⟨rest, _, hs⟩ | ⟨rest, hev, _⟩
  · exact absurd (State.cell_luma_eq (engineTurn_luma (s := s.withAgenda rest) (hs.symm.trans h)) p) hp
  · obtain ⟨r, d, _, hr⟩ := (s.withAgenda rest).memRead_frame off w
    obtain rfl := Host.Outcome.next.inj (hs.symm.trans h)
    rw [hr] at hp
    exact absurd rfl hp
  · obtain rfl := Host.Outcome.next.inj (hs.symm.trans h)
    obtain ⟨hb, hhi, hlo⟩ := memWrite_luma_changed (s := s.withAgenda rest) hp
    exact ⟨rest, .inr ⟨hb, off, w, v, hev, hhi, hlo⟩⟩
  · obtain rfl := Host.Outcome.next.inj (hs.symm.trans h)
    exact absurd (State.cell_luma_eq (s.withAgenda rest).resetKeepingPower_luma p) hp
  · exact ⟨rest, .inl hev⟩

end Sys2Proof.Machine
end

section
/-!
PROOFS. The host's accesses to registers and memories: which are accepted, what they return, what they change, and the statements about the
bus.
-/

namespace Sys2Proof.Machine

/-! ### The address map as ranges -/

/-- The memories do not overlap: a cell's place lies in the window of its own memory only (R60). -/
theorem Bank.covers_base_add {b : Bank} (b' : Bank) {i : Nat} (h : i < b.size) :
    b'.covers (b.base + i) = decide (b' = b) := by
  rw [Bool.eq_iff_iff]
  simp only [Bank.covers, Bool.and_eq_true, decide_eq_true_eq]
  cases b <;> cases b' <;>
    simp only [Bank.base, Bank.size, Config.maxPixels, reduceCtorEq, iff_true, iff_false] at h ⊢ <;> omega

theorem Bank.le_base (b : Bank) : 0x100 ≤ b.base := by cases b <;> decide

/-- Cell `i` of a memory stands at the memory's base plus `i` (R60, R71). -/
theorem regionOf_base_add {b : Bank} {i : Nat} (h : i < b.size) : regionOf (b.base + i) = .cell b i := by
  have hnotRegs : ¬ b.base + i < 0x100 := not_lt.mpr (Nat.le_add_right_of_le b.le_base)
  unfold regionOf
  rw [if_neg hnotRegs]
  simp only [Bank.covers_base_add _ h, decide_eq_true_eq]
  cases b <;> simp

theorem regionOf_eq_regs_iff {off : Nat} : regionOf off = .regs ↔ off < 0x100 := by
  refine ⟨fun h => ?_, regionOf_regs⟩
  unfold regionOf at h
  split_ifs at h
  assumption

/-- The offsets that belong to a memory (R60): CW and SYN stand side by side, and so do LUMA and BIN. -/
theorem regionOf_cell_iff {off : Nat} :
    (∃ b i, regionOf off = .cell b i) ↔ (0x400 ≤ off ∧ off < 0x600) ∨ (0x400000 ≤ off ∧ off < 0x880000) := by
  constructor
  · rintro ⟨b, i, h⟩
    obtain ⟨ho, hi⟩ := regionOf_cell h
    cases b <;> simp only [Bank.size, Bank.base, Config.maxPixels] at ho hi <;> omega
  · intro h
    have hmem : ∃ b : Bank, b.base ≤ off ∧ off - b.base < b.size := by
      by_cases hcw : off < 0x500
      · exact ⟨.cw, by simp only [Bank.size, Bank.base]; omega⟩
      by_cases hsyn : off < 0x600
      · exact ⟨.syn, by simp only [Bank.size, Bank.base]; omega⟩
      by_cases hluma : off < 0x800000
      · exact ⟨.luma, by simp only [Bank.size, Bank.base, Config.maxPixels]; omega⟩
      · exact ⟨.bin, by simp only [Bank.size, Bank.base, Config.maxPixels]; omega⟩
    obtain ⟨b, hlo, hhi⟩ := hmem
    have hcell := regionOf_base_add hhi
    rw [Nat.add_sub_cancel' hlo] at hcell
    exact ⟨b, off - b.base, hcell⟩

/-- Which accesses are accepted, as ranges (R60, R65 to R67). -/
theorem accessOk_iff {off : Nat} {w : Width} :
    accessOk off w = true ↔ off % w.bytes = 0 ∧
      ((off < 0x100 ∧ w = .w32) ∨ (0x400 ≤ off ∧ off < 0x600) ∨ (0x400000 ≤ off ∧ off < 0x880000)) := by
  rw [← regionOf_cell_iff, ← regionOf_eq_regs_iff]
  cases h : regionOf off <;> simp [accessOk, aligned, h]

/-! ### Byte order (R61) -/

/-- Bit `j` of a little-endian value is bit `j mod 8` of byte `j div 8`. -/
theorem getLsbD_wordOfBytes (bs : List Byte) {j : Nat} (hj : j < 32) :
    (wordOfBytes bs).getLsbD j = (bs.getD (j / 8) 0).getLsbD (j % 8) := by
  induction bs generalizing j with
  | nil => simp [wordOfBytes]
  | cons b bs ih =>
    simp only [wordOfBytes, BitVec.getLsbD_or, BitVec.getLsbD_setWidth, BitVec.getLsbD_shiftLeft, hj, decide_true,
      Bool.true_and]
    by_cases h : j < 8
    · have hq : j / 8 = 0 := by omega
      have hr : j % 8 = j := by omega
      simp [h, hq, hr]
    · have hq : j / 8 = (j - 8) / 8 + 1 := by omega
      have hr : (j - 8) % 8 = j % 8 := by omega
      rw [ih (by omega), BitVec.getLsbD_of_ge b j (by omega), hq, hr]
      simp [h]

/-- A narrow value has zeros above its width (log entry 17). -/
theorem toNat_wordOfBytes_lt (bs : List Byte) : (wordOfBytes bs).toNat < 2 ^ (8 * bs.length) := by
  apply Nat.lt_pow_two_of_testBit
  intro j hj
  rw [BitVec.testBit_toNat]
  by_cases h : j < 32
  · rw [getLsbD_wordOfBytes bs h, List.getD_eq_default _ _ (by omega)]
    simp
  · exact BitVec.getLsbD_of_ge _ _ (not_lt.mp h)

/-- Byte `k` of an access's data is its bits `8k+7 : 8k`. -/
theorem getD_bytesOf (v : Word) {w : Width} {k : Nat} (hk : k < w.bytes) :
    (bytesOf v w).getD k 0 = v.extractLsb' (8 * k) 8 := by
  have hbyte : (bytesOf v w).getD k 0 = byteOfWord v k := by
    simp [bytesOf, List.getD_eq_getElem?_getD, List.getElem?_range hk]
  rw [hbyte]
  apply BitVec.eq_of_getLsbD_eq
  intro j hj
  simp [byteOfWord, hj]

/-- Bit `j` of the value of some cells is bit `j mod 8` of the cell `j div 8` places on. -/
theorem State.getLsbD_readCells (s : State) (b : Bank) (i : Nat) {n j : Nat} (hn : j < 8 * n) (hj : j < 32) :
    (s.readCells b i n).getLsbD j = (s.cell b (i + j / 8)).getLsbD (j % 8) := by
  have hk : j / 8 < n := by omega
  rw [State.readCells, getLsbD_wordOfBytes _ hj]
  simp [List.getD_eq_getElem?_getD, List.getElem?_range hk]

/-- Byte `k` of the value of some cells is the cell `k` places on. -/
theorem State.extractLsb'_readCells (s : State) (b : Bank) (i : Nat) {n k : Nat} (hk : k < n) (hn : n ≤ 4) :
    (s.readCells b i n).extractLsb' (8 * k) 8 = s.cell b (i + k) := by
  apply BitVec.eq_of_getLsbD_eq
  intro j hj
  have hq : (8 * k + j) / 8 = k := by omega
  have hr : (8 * k + j) % 8 = j := by omega
  rw [BitVec.getLsbD_extractLsb', s.getLsbD_readCells b i (by omega) (by omega), hq, hr]
  simp [hj]

theorem State.toNat_readCells_lt (s : State) (b : Bank) (i n : Nat) : (s.readCells b i n).toNat < 2 ^ (8 * n) := by
  simpa [State.readCells] using toNat_wordOfBytes_lt ((List.range n).map fun k => s.cell b (i + k))

theorem State.toNat_busyRead_lt (s : State) (n : Nat) : (s.busyRead n).toNat < 2 ^ (8 * n) := by
  simpa [State.busyRead] using toNat_wordOfBytes_lt ((List.range n).map fun k => Config.freeByte s.draws k)

theorem Width.bytes_pos (w : Width) : 0 < w.bytes := by cases w <;> decide

theorem Width.bytes_le (w : Width) : w.bytes ≤ 4 := by cases w <;> decide

/-! ### Accepted accesses to the memories -/

section MemoryAccess

variable {s : State} {off : Offset} {b : Bank} {i : Nat} {w : Width}

/-- An aligned access to a cell of a memory is accepted at any width (R65, R66). -/
theorem accessOk_cell (ho : off.toNat = b.base + i) (hi : i < b.size) (ha : off.toNat % w.bytes = 0) :
    accessOk off.toNat w = true := by
  rw [accessOk, ho, regionOf_base_add hi, ← ho]
  simp [aligned, ha]

theorem State.memRead_cell (hb : s.busy = false) (ho : off.toNat = b.base + i) (hi : i < b.size)
    (ha : off.toNat % w.bytes = 0) : s.memRead off w = s.withReply (.data (s.readCells b i w.bytes)) := by
  have hr : regionOf off.toNat = .cell b i := ho ▸ regionOf_base_add hi
  simp [State.memRead, accessOk_cell ho hi ha, hr, hb]

theorem State.memWrite_cell (v : Word) (hb : s.busy = false) (ho : off.toNat = b.base + i) (hi : i < b.size)
    (ha : off.toNat % w.bytes = 0) : s.memWrite off w v = (s.hostStore b i w v).withReply .accepted := by
  have hr : regionOf off.toNat = .cell b i := ho ▸ regionOf_base_add hi
  simp [State.memWrite, accessOk_cell ho hi ha, hr, hb]

end MemoryAccess

/-! ### What a store leaves alone -/

theorem State.setMem_setMem (s : State) (b : Bank) (m m' : Memory) : (s.setMem b m).setMem b m' = s.setMem b m' := by
  cases b <;> rfl

theorem State.setMem_mem (s : State) (b : Bank) : s.setMem b (s.mem b) = s := by
  cases b <;> rfl

/-- Writing consecutive cells replaces one memory and nothing else. -/
theorem State.setCells_eq_setMem (s : State) (b : Bank) (i : Nat) (vs : List Byte) :
    s.setCells b i vs = s.setMem b ((s.setCells b i vs).mem b) := by
  induction vs generalizing s i with
  | nil => exact (s.setMem_mem b).symm
  | cons v vs ih =>
    have hcell : s.setCell b i v = s.setMem b ((s.setCell b i v).mem b) := by
      rw [State.setCell, State.mem_setMem_same]
    rw [State.setCells, ih, hcell, State.setMem_setMem, State.mem_setMem_same]

/-- A host store leaves SYN and everything that is no memory alone (R69). -/
theorem State.hostStore_frame (s : State) (b : Bank) (i : Nat) (w : Width) (v : Word) :
    s.hostStore b i w v = { s with
      cw := (s.hostStore b i w v).cw, luma := (s.hostStore b i w v).luma, bin := (s.hostStore b i w v).bin } := by
  cases b with
  | syn => rfl
  | cw | luma | bin =>
    rw [State.hostStore, State.setCells_eq_setMem]
    rfl

/-- A host store puts byte `k` of the data into the cell `k` places on (R61). -/
theorem State.cell_hostStore (s : State) {b : Bank} (i : Nat) {w : Width} (v : Word) {k : Nat} (hb : b ≠ .syn)
    (hk : k < w.bytes) : (s.hostStore b i w v).cell b (i + k) = v.extractLsb' (8 * k) 8 := by
  rcases s.hostStore_cases b i w v with ⟨hsyn, _⟩ | ⟨_, hs⟩
  · exact absurd hsyn hb
  · rw [hs, State.cell_setCells, bytesOf_length, if_pos (by omega), Nat.add_sub_cancel_left, getD_bytesOf v hk]

@[simp] theorem State.cell_withReply (s : State) (r : BusReply) (b : Bank) (i : Nat) :
    (s.withReply r).cell b i = s.cell b i := by
  rw [State.cell, State.mem_withReply, State.cell]

/-! ### Accepted and refused accesses (O41) -/

/-- An accepted read answers data of the access's width (R70; log entry 17). -/
theorem State.memRead_accepted (s : State) {off : Offset} {w : Width} (h : accessOk off.toNat w = true) :
    ∃ d : Word, (s.memRead off w).reply = .data d ∧ d.toNat < 2 ^ (8 * w.bytes) := by
  rcases s.memRead_cases off w with ⟨hno, _⟩ | ⟨_, hr, hs⟩ | ⟨_, _, _, hs⟩ | ⟨b, i, _, _, _, hs⟩
  · simp [h] at hno
  · obtain rfl := width_of_accessOk_regs h hr
    exact ⟨_, by rw [hs]; rfl, BitVec.isLt _⟩
  · exact ⟨_, by rw [hs]; rfl, s.toNat_busyRead_lt _⟩
  · exact ⟨_, by rw [hs]; rfl, s.toNat_readCells_lt b i _⟩

theorem State.memWrite_accepted (s : State) {off : Offset} {w : Width} (v : Word) (h : accessOk off.toNat w = true) :
    (s.memWrite off w v).reply = .accepted := by
  rcases s.memWrite_cases off w v with ⟨hno, _⟩ | ⟨_, _, hs⟩ | ⟨_, _, _, hs⟩ | ⟨_, _, _, _, _, hs⟩
  · simp [h] at hno
  all_goals rw [hs, State.withReply_reply]

/-- Settles O41: the ranges are those in which an access is accepted. -/
theorem refusedAccessesChangeNothing : Obligations.RefusedAccessesChangeNothing := by
  intro s off w v
  refine ⟨fun hbad => ?_, fun hgood => ?_⟩
  · have hno : accessOk off.toNat w = false := Bool.eq_false_iff.mpr (mt accessOk_iff.mp hbad)
    exact ⟨s.memRead_refused hno, s.memWrite_refused v hno⟩
  · have hok := accessOk_iff.mpr hgood
    exact ⟨s.memRead_accepted hok, s.memWrite_accepted v hok⟩

/-! ### Accesses while a command runs (O42) -/

/-- A memory read while BUSY = 1 gives a drawn value and changes nothing of QRB (R73; log entry 7). -/
theorem State.memRead_busy {s : State} {off : Offset} {w : Width} (hok : accessOk off.toNat w = true)
    (hb : s.busy = true) (h : 0x100 ≤ off.toNat) :
    s.memRead off w = s.drawn.withReply (.data (s.busyRead w.bytes)) := by
  rcases s.memRead_cases off w with ⟨hno, _⟩ | ⟨_, hr, _⟩ | ⟨_, _, _, hs⟩ | ⟨_, _, _, hidle, _⟩
  · simp [hok] at hno
  · exact absurd (regionOf_eq_regs_iff.mp hr) (by omega)
  · exact hs
  · simp [hb] at hidle

/-- Two states give the host the same results: the ERR code as it reads, and the fields of RESULT, RS_STAT, BIN_BLKSZ and BIN_GRID. -/
structure State.SameResults (s t : State) : Prop where
  errRead : t.errRead = s.errRead
  result : t.result = s.result
  nerr : t.nerr = s.nerr
  synz : t.synz = s.synz
  blkSz : t.blkSz = s.blkSz
  gridX : t.gridX = s.gridX
  gridY : t.gridY = s.gridY

theorem State.SameResults.readReg {s t : State} (h : s.SameResults t) :
    ∀ r ∈ [0x10, 0x1C, 0x28, 0x2C], t.readReg r = s.readReg r := by
  simp only [List.forall_mem_cons]
  refine ⟨?result, ?rsStat, ?blkSz, ?grid, by simp⟩
  case result => exact congrArg (zeros 24 ++ ·) h.result
  case rsStat =>
    change t.rsStatWord = s.rsStatWord
    rw [State.rsStatWord, State.rsStatWord, h.nerr, h.synz]
  case blkSz => exact congrArg (zeros 19 ++ ·) h.blkSz
  case grid => exact congrArg₂ (· ++ ·) h.gridY h.gridX

/-- Acceptance keeps the results of the command before (R256). -/
theorem State.accept_sameResults {s : State} (w : Word) (hb : s.busy = false) : s.SameResults (s.accept w) :=
  ⟨State.errRead_accept w hb, rfl, rfl, rfl, rfl, rfl, rfl⟩

/-- A host write while BUSY = 1 reaches no result, whether it is refused or dropped (R73). -/
theorem State.memWrite_sameResults {s : State} (off : Offset) (w : Width) (v : Word) (hb : s.busy = true) :
    s.SameResults (s.memWrite off w v) := by
  cases hok : accessOk off.toNat w with
  | false =>
    rw [s.memWrite_refused v hok]
    constructor <;> rfl
  | true =>
    rw [State.memWrite_busy v hok hb]
    constructor <;> rfl

/-- A step that leaves the command running was a host access, since a completion and a reset clear BUSY; it reaches no result
(R73, R256). -/
theorem step_sameResults {s t : State} (hb : s.busy = true) (h : step s = .next t) (ht : t.busy = true) :
    s.SameResults t := by
  rcases step_cases s with
    ⟨rest, _, hs⟩ | ⟨off, w, rest, _, hs⟩ | ⟨off, w, v, rest, _, hs⟩ | ⟨rest, _, hs⟩ | ⟨rest, _, hs⟩ <;> rw [hs] at h
  · rcases engineTurn_inv h with ⟨hidle, _⟩ | ⟨_, hc⟩
    · simp [hb] at hidle
    · simp [hc.completedFrom.busy] at ht
  all_goals obtain rfl := Host.Outcome.next.inj h
  · obtain ⟨r, d, _, hr⟩ := (s.withAgenda rest).memRead_frame off w
    rw [hr]
    constructor <;> rfl
  · exact { State.memWrite_sameResults (s := s.withAgenda rest) off w v hb with }
  · exact Bool.noConfusion ht
  · exact Bool.noConfusion ht

/-- Settles O42: a write is dropped with PERR, a read changes no more than the draws, and results stay until completion. -/
theorem busyHostAccess : Obligations.BusyHostAccess := by
  refine ⟨fun s off w v hb hok => ⟨State.memWrite_busy v hok hb, fun hreg => ?_, fun hmem => ?_⟩, fun s t hb h ht => ?_,
    fun s w hb => ?_⟩
  · obtain rfl := width_of_accessOk_regs hok (regionOf_regs hreg)
    exact s.memRead_reg hreg (accessOk_iff.mp hok).1
  · exact ⟨_, State.memRead_busy hok hb hmem⟩
  · have hsame := step_sameResults hb h ht
    exact ⟨hsame.errRead, hsame.readReg⟩
  · have hsame := State.accept_sameResults w hb
    exact ⟨hsame.errRead.trans (State.errRead_idle hb), State.errRead_idle hb, hsame.readReg⟩

/-! ### Repeated accesses (O43) -/

theorem State.writeStatus_again (s : State) (v : Word) : (s.writeStatus v).writeStatus v = s.writeStatus v := by
  simp [State.writeStatus]

/-- Writing the same to a register again changes nothing more, but for CMD (R68). -/
theorem State.writeReg_again (s : State) {off : Nat} (v : Word) (h : off ≠ 0x0C) :
    (s.writeReg off v).writeReg off v = s.writeReg off v := by
  rcases s.writeReg_cases off v with
    ⟨rfl, _⟩ | ⟨rfl, _⟩ | ⟨hcmd, _⟩ | ⟨rfl, _⟩ | ⟨rfl, _⟩ | ⟨rfl, _⟩ | ⟨rfl, _⟩ | hs
  · rfl
  · exact s.writeStatus_again v
  · exact absurd hcmd h
  any_goals rfl
  · rw [hs, hs]

/-- A register write neither reads nor changes the answer on the bus. -/
theorem State.writeReg_withReply (s : State) (off : Nat) (v : Word) (r : BusReply) :
    (s.withReply r).writeReg off v = (s.writeReg off v).withReply r := by
  unfold State.writeReg
  split <;> rfl

/-- Only a write to CMD changes BUSY (R110). -/
theorem State.writeReg_busy (s : State) {off : Nat} (v : Word) (h : off ≠ 0x0C) : (s.writeReg off v).busy = s.busy := by
  rcases s.writeReg_cases off v with
    ⟨_, hs⟩ | ⟨_, hs⟩ | ⟨hcmd, _⟩ | ⟨_, hs⟩ | ⟨_, hs⟩ | ⟨_, hs⟩ | ⟨_, hs⟩ | hs
  · rw [hs]
  · rw [hs, State.writeStatus_busy]
  · exact absurd hcmd h
  all_goals rw [hs]

/-- Storing the same bytes again changes no cell. -/
theorem State.cell_hostStore_again (s : State) (b : Bank) (i : Nat) (w : Width) (v : Word) (r : BusReply) (b' : Bank)
    (j : Nat) :
    (((s.hostStore b i w v).withReply r).hostStore b i w v).cell b' j = (s.hostStore b i w v).cell b' j := by
  by_contra hne
  rw [← State.cell_withReply (s.hostStore b i w v) r] at hne
  obtain ⟨rfl, hlo, hhi⟩ := State.cell_hostStore_changed hne
  obtain ⟨k, rfl⟩ : ∃ k, j = i + k := ⟨j - i, by omega⟩
  rcases s.hostStore_cases b' i w v with ⟨rfl, _⟩ | ⟨hsyn, _⟩
  · exact hne rfl
  · rw [State.cell_withReply, State.cell_hostStore _ i v hsyn (by omega), State.cell_hostStore _ i v hsyn (by omega)] at hne
    exact hne rfl

/-- Storing into a memory does not change BUSY. -/
theorem State.hostStore_busy (s : State) (b : Bank) (i : Nat) (w : Width) (v : Word) :
    (s.hostStore b i w v).busy = s.busy := by
  rw [State.hostStore_frame]

/-- Nothing more has changed from `s` to `t`: no cell reads differently, and all but the writable memories is the same (two
memories with the same cells may list them differently, log entry 5). -/
def State.unchangedBy (s t : State) : Prop :=
  t.sameCells s ∧ t = { s with cw := t.cw, luma := t.luma, bin := t.bin }

theorem State.unchangedBy_of_eq {s t : State} (h : t = s) : s.unchangedBy t := by
  subst h
  exact ⟨fun _ _ => rfl, rfl⟩

/-- The same write again changes nothing more, wherever it goes but to CMD (R68). -/
theorem State.memWrite_again (s : State) {off : Offset} (w : Width) (v : Word) (h : off.toNat ≠ 0x0C) :
    (s.memWrite off w v).unchangedBy ((s.memWrite off w v).memWrite off w v) := by
  rcases s.memWrite_cases off w v with ⟨hno, hs⟩ | ⟨hok, hb, hs⟩ | ⟨hok, hb, hr, hs⟩ | ⟨b, i, hok, hb, hr, hs⟩ <;> rw [hs]
  · exact State.unchangedBy_of_eq (State.memWrite_refused _ v hno)
  · exact State.unchangedBy_of_eq (State.memWrite_busy v hok hb)
  · obtain rfl := width_of_accessOk_regs hok hr
    have hb' : ((s.writeReg off.toNat v).withReply .accepted).busy = false := (s.writeReg_busy v h).trans hb
    apply State.unchangedBy_of_eq
    rw [State.memWrite_reg v (regionOf_eq_regs_iff.mp hr) (accessOk_iff.mp hok).1 hb', State.writeReg_withReply,
      s.writeReg_again v h]
    rfl
  · obtain ⟨ho, hi⟩ := regionOf_cell hr
    have hb' : ((s.hostStore b i w v).withReply .accepted).busy = false := (s.hostStore_busy b i w v).trans hb
    rw [State.memWrite_cell v hb' ho hi (accessOk_iff.mp hok).1]
    refine ⟨fun b' j => ?_, ?_⟩
    · rw [State.cell_withReply, State.cell_withReply]
      exact s.cell_hostStore_again b i w v .accepted b' j
    · exact congrArg (State.withReply .accepted) (State.hostStore_frame _ b i w v)

/-- The same read again gives the same while QRB is idle (R68). -/
theorem State.memRead_again {s : State} (off : Offset) (w : Width) (hb : s.busy = false) :
    ((s.memRead off w).memRead off w).reply = (s.memRead off w).reply := by
  rcases s.memRead_cases off w with ⟨hno, hs⟩ | ⟨hok, hr, hs⟩ | ⟨_, hbusy, _⟩ | ⟨b, i, hok, _, hr, hs⟩
  · rw [hs, State.memRead_refused _ hno]
    rfl
  · obtain rfl := width_of_accessOk_regs hok hr
    rw [hs, State.memRead_reg _ (regionOf_eq_regs_iff.mp hr) (accessOk_iff.mp hok).1]
    rfl
  · simp [hb] at hbusy
  · obtain ⟨ho, hi⟩ := regionOf_cell hr
    have hcells (r : BusReply) : (s.withReply r).readCells b i w.bytes = s.readCells b i w.bytes := by
      simp [State.readCells]
    rw [hs, State.memRead_cell (s := s.withReply (.data _)) hb ho hi (accessOk_iff.mp hok).1, hcells]
    rfl

/-- Settles O43: a read changes the reply and the draws only; a write done twice leaves the state of the first. -/
theorem readsAndWritesRepeat : Obligations.ReadsAndWritesRepeat := by
  refine ⟨fun s off w => ?_, fun s off w hb => State.memRead_again off w hb, fun s off w v h => s.memWrite_again w v h⟩
  obtain ⟨r, d, _, hs⟩ := s.memRead_frame off w
  exact ⟨r, d, hs⟩

/-! ### Byte order of the memories and of BIN (O44, O45) -/

/-- Settles O44: the cell `k` places on is byte `k` of the data, both ways. -/
theorem littleEndianAccess : Obligations.LittleEndianAccess := by
  intro s b i off w v hb ho hfit ha
  have hi : i < b.size := (Nat.lt_add_of_pos_right w.bytes_pos).trans_le hfit
  refine ⟨⟨_, State.memRead_cell hb ho hi ha, fun k hk => s.extractLsb'_readCells b i hk w.bytes_le⟩, fun hsyn => ?_⟩
  rw [State.memWrite_cell v hb ho hi ha]
  refine ⟨fun k hk => ?written, fun b' j hout => ?others, ?frame⟩
  case written => rw [State.cell_withReply, s.cell_hostStore i v hsyn hk]
  case others =>
    rw [State.cell_withReply]
    exact not_not.mp (mt State.cell_hostStore_changed hout)
  case frame => exact congrArg (State.withReply .accepted) (s.hostStore_frame b i w v)

/-- Settles O45: a word's bit order is its bytes' bit order. -/
theorem binPixelLayout : Obligations.BinPixelLayout := by
  intro s j i hi
  have hq : (32 * j + i) / 8 = 4 * j + i / 8 := by omega
  have hr : (32 * j + i) % 8 = i % 8 := by omega
  refine ⟨?_, rfl⟩
  rw [s.getLsbD_readCells .bin (4 * j) (by omega) hi, State.binBit, hq, hr]

/-! ### Writes to read-only places (O47) -/

/-- The read-only registers ignore a write (R69). -/
theorem State.writeReg_readOnly (s : State) {off : Nat} (v : Word) (h : off ∈ [0x00, 0x10, 0x1C, 0x28, 0x2C]) :
    s.writeReg off v = s := by
  simp only [List.mem_cons, List.not_mem_nil, or_false] at h
  rcases h with rfl | rfl | rfl | rfl | rfl <;> rfl

/-- Settles O47: neither the register map nor SYN takes the bits, and STATUS has its two write-1-to-clear bits. -/
theorem readOnlyPlacesIgnoreWrites : Obligations.ReadOnlyPlacesIgnoreWrites := by
  refine fun s off w v hb => ⟨?registers, fun hlo hhi ha => ?syn, ?status⟩
  case registers =>
    rintro (hmem | ⟨hlo, hhi, ha⟩)
    · have hreg : off.toNat < 0x100 ∧ off.toNat % 4 = 0 := by
        simp only [List.mem_cons, List.not_mem_nil, or_false] at hmem
        omega
      rw [State.memWrite_reg v hreg.1 hreg.2 hb, s.writeReg_readOnly v hmem]
      rfl
    · rw [State.memWrite_reg v hhi ha hb, s.writeReg_reserved v hlo]
      rfl
  case syn =>
    have ho : off.toNat = Bank.syn.base + (off.toNat - 0x500) := by rw [Bank.base]; omega
    have hi : off.toNat - 0x500 < Bank.syn.size := by rw [Bank.size]; omega
    exact State.memWrite_cell v hb ho hi ha
  case status => exact State.memWrite_reg v (by decide) (by decide) hb

end Sys2Proof.Machine
end

section
/-!
PROOFS. The command word: its four fields, the decoder and the encoder by fields, the rows of the opcode table, and the statements about
the encoding.
-/

namespace Sys2Proof

/-! ### The four fields of a word (R90) -/

/-- A word is its four fields side by side. -/
theorem word_eq_append (w : Word) : w = zField w ++ bField w ++ aField w ++ opField w := by
  have join {start len len' : Nat} :
      w.extractLsb' (start + len) len' ++ w.extractLsb' start len = w.extractLsb' start (len' + len) :=
    BitVec.extractLsb'_append_extractLsb'_eq_extractLsb' rfl
  rw [zField, bField, aField, opField, join (start := 16) (len := 8), join (start := 8) (len := 8),
    join (start := 0) (len := 8), BitVec.extractLsb'_eq_self]

/-- Two words are equal when their four fields are. -/
theorem word_ext_iff {v w : Word} :
    v = w ↔ opField v = opField w ∧ aField v = aField w ∧ bField v = bField w ∧ zField v = zField w := by
  refine ⟨fun h => by simp [h], fun ⟨ho, ha, hb, hz⟩ => ?_⟩
  rw [word_eq_append v, word_eq_append w, ho, ha, hb, hz]

/-! ### Operand bytes and formats (R91) -/

/-- What a format asks of the three operand bytes. -/
theorem OperandFields.fits_iff {f : OperandFields} {fmt : Format} :
    f.fits fmt = true ↔ f.z = 0 ∧ f.aFits fmt = true ∧ f.bFits fmt = true := by
  simp only [OperandFields.fits, OperandFields.reservedClear, Bool.and_eq_true, beq_iff_eq, and_assoc]

theorem OperandFields.fits_z {f : OperandFields} : f.fits .z = true ↔ f = ⟨0, 0, 0⟩ := by
  obtain ⟨a, b, z⟩ := f
  simp only [OperandFields.fits_iff, OperandFields.aFits, OperandFields.bFits, beq_iff_eq, OperandFields.mk.injEq]
  tauto

theorem OperandFields.fits_u {f : OperandFields} : f.fits .u = true ↔ f = ⟨f.a, 0, 0⟩ := by
  obtain ⟨a, b, z⟩ := f
  simp [OperandFields.fits_iff, OperandFields.aFits, OperandFields.bFits, and_comm]

theorem OperandFields.fits_b {f : OperandFields} : f.fits .b = true ↔ f = ⟨f.a, f.b, 0⟩ := by
  obtain ⟨a, b, z⟩ := f
  simp [OperandFields.fits_iff, OperandFields.aFits, OperandFields.bFits]

/-- The row's format check passes exactly when its command is the answer (R91, R94). -/
theorem decodeAs_eq_ok_iff {fmt : Format} {i j : Instr} {f : OperandFields} :
    decodeAs fmt i f = .ok j ↔ i = j ∧ f.fits fmt = true := by
  unfold decodeAs
  split_ifs with hreserved hfit
  · have hz : f.z ≠ 0#8 := by simpa [OperandFields.reservedClear] using hreserved
    simp [OperandFields.fits_iff, hz]
  · simp [hfit]
  · simp [hfit]

/-- The same command with other operand bytes, of which it takes those that its format has (R92). -/
def Instr.withFields (f : OperandFields) : Instr → Instr
  | .nop => .nop
  | .gfadd _ _ => .gfadd f.a f.b
  | .gfmul _ _ => .gfmul f.a f.b
  | .gfdiv _ _ => .gfdiv f.a f.b
  | .gfinv _ => .gfinv f.a
  | .gfexp _ => .gfexp f.a
  | .gflog _ => .gflog f.a
  | .rssyn => .rssyn
  | .rsdec => .rsdec
  | .binarize => .binarize

@[simp] theorem Instr.withFields_opcode (f : OperandFields) (i : Instr) : (i.withFields f).opcode = i.opcode := by
  cases i <;> rfl

/-- Operand bytes that fit the format are the bytes the command is written with. -/
theorem Instr.withFields_operandFields {f : OperandFields} {i : Instr} (h : f.fits i.format = true) :
    (i.withFields f).operandFields = f := by
  cases i with
  | nop | rssyn | rsdec | binarize => exact (OperandFields.fits_z.mp h).symm
  | gfinv | gfexp | gflog => exact (OperandFields.fits_u.mp h).symm
  | gfadd | gfmul | gfdiv => exact (OperandFields.fits_b.mp h).symm

/-! ### The decoder and the encoder by fields -/

/-- A command's opcode selects the row that decodes to that command, with the word's own operand bytes (R93). -/
theorem decode_of_opField {w : Word} {i : Instr} (h : opField w = i.opcode) :
    decode w = decodeAs i.format (i.withFields (operandFieldsOf w)) (operandFieldsOf w) := by
  simp only [decode, h]
  cases i <;> rfl

/-- Everything the decoder can do: one of the ten opcodes selects its row, any other is rejected (R93, R94). -/
theorem decode_cases (w : Word) :
    (∃ i : Instr, opField w = i.opcode) ∨ decode w = .error (.unknownOpcode (opField w)) := by
  have hop {n : Nat} (h : (opField w).toNat = n) : opField w = BitVec.ofNat 8 n := by simp [← h]
  unfold decode
  split
  case h_1 h => exact .inl ⟨.nop, hop h⟩
  case h_2 h => exact .inl ⟨.gfadd 0 0, hop h⟩
  case h_3 h => exact .inl ⟨.gfmul 0 0, hop h⟩
  case h_4 h => exact .inl ⟨.gfdiv 0 0, hop h⟩
  case h_5 h => exact .inl ⟨.gfinv 0, hop h⟩
  case h_6 h => exact .inl ⟨.gfexp 0, hop h⟩
  case h_7 h => exact .inl ⟨.gflog 0, hop h⟩
  case h_8 h => exact .inl ⟨.rssyn, hop h⟩
  case h_9 h => exact .inl ⟨.rsdec, hop h⟩
  case h_10 h => exact .inl ⟨.binarize, hop h⟩
  case h_11 => exact .inr rfl

/-- What a word decodes to has the word's opcode and operand bytes. -/
theorem fields_of_decode {w : Word} {i : Instr} (h : decode w = .ok i) :
    opField w = i.opcode ∧ operandFieldsOf w = i.operandFields := by
  rcases decode_cases w with ⟨j, hj⟩ | herr
  · rw [decode_of_opField hj, decodeAs_eq_ok_iff] at h
    obtain ⟨rfl, hfit⟩ := h
    exact ⟨by rw [hj, Instr.withFields_opcode], (Instr.withFields_operandFields hfit).symm⟩
  · simp [herr] at h

/-- Every command is well formed, and the fields of its word are its opcode and its operand bytes (R92, R97). -/
theorem encodedFields (i : Instr) : Laws.EncodedFields.Statement i := by
  apply Laws.of_operands <;> cases i <;> rfl

/-- A word with a command's opcode and operand bytes is that command's word. -/
theorem encode_eq_of_fields {w : Word} {i : Instr} (ho : opField w = i.opcode)
    (hf : operandFieldsOf w = i.operandFields) : encode i = w := by
  obtain ⟨_, heo, hef, _⟩ := encodedFields i
  have hfields : operandFieldsOf (encode i) = operandFieldsOf w := hef.trans hf.symm
  simp only [operandFieldsOf, OperandFields.mk.injEq] at hfields
  exact word_ext_iff.mpr ⟨heo.trans ho.symm, hfields⟩

/-- The opcode table reads a whole word as the decoder does (R96). -/
theorem decodeTableWord_of_decode {w : Word} {i : Instr} (h : decode w = .ok i) :
    decodeTableWord 32 w.toNat = some i := by
  have hword : BitVec.ofNat 32 (w.toNat % 2 ^ 32) = w := by
    rw [Nat.mod_eq_of_lt w.isLt, BitVec.ofNat_toNat, BitVec.setWidth_eq]
  rw [decodeTableWord, hword, h]
  rfl

/-! ### The rows of the opcode table (R93) -/

/-- The bits that a format fixes in a word: the opcode, bits 31:24 and the operand fields it does not use. -/
def Format.mask : Format → Word
  | .z => 0xFFFFFFFF
  | .u => 0xFFFF00FF
  | .b => 0xFF0000FF

/-- A word agrees with an opcode under a format's mask exactly when it has that opcode and its operand bytes fit. -/
theorem and_mask_eq_iff {w : Word} {fmt : Format} {op : Byte} :
    w &&& fmt.mask = (0 : Byte) ++ (0 : Byte) ++ (0 : Byte) ++ op ↔
      opField w = op ∧ (operandFieldsOf w).fits fmt = true := by
  obtain ⟨ho, ha, hb, hz⟩ := Laws.fields_append 0 0 0 op
  have kept (x : Byte) : x &&& 255#8 = x := BitVec.and_allOnes
  rw [word_ext_iff, ho, ha, hb, hz]
  simp only [operandFieldsOf, opField, aField, bField, zField, BitVec.extractLsb'_and]
  cases fmt with
  | z => simp [OperandFields.fits_z, Format.mask, kept]
  | u => simp [OperandFields.fits_u, Format.mask, kept]
  | b => simp [OperandFields.fits_b, Format.mask, kept]

/-- The row of a command: its mnemonic, its word with zero operands, and the mask of its format. -/
def Instr.row (i : Instr) : OpcodeRow :=
  ⟨i.mnemonic, (0 : Byte) ++ (0 : Byte) ++ (0 : Byte) ++ i.opcode, i.format.mask⟩

/-- One command of each mnemonic. -/
def oneOfEach : List Instr :=
  [.nop, .gfadd 0 0, .gfmul 0 0, .gfdiv 0 0, .gfinv 0, .gfexp 0, .gflog 0, .rssyn, .rsdec, .binarize]

theorem opcodeTable_eq_map_row : opcodeTable = oneOfEach.map Instr.row := rfl

/-- A command's row does not depend on its operands. -/
theorem Instr.withFields_row (f : OperandFields) (i : Instr) : (i.withFields f).row = i.row := by cases i <;> rfl

/-- The table holds the rows of the commands and no other. -/
theorem mem_opcodeTable_iff {row : OpcodeRow} : row ∈ opcodeTable ↔ ∃ i : Instr, row = i.row := by
  rw [opcodeTable_eq_map_row, List.mem_map]
  constructor
  · rintro ⟨i, _, rfl⟩
    exact ⟨i, rfl⟩
  · rintro ⟨i, rfl⟩
    have hmem : i.withFields ⟨0, 0, 0⟩ ∈ oneOfEach := by cases i <;> simp [Instr.withFields, oneOfEach]
    exact ⟨_, hmem, i.withFields_row _⟩

/-- No two rows have the same opcode. -/
theorem opcodeTable_opcodes_nodup : (opcodeTable.map fun row => opField row.pattern).Nodup := by decide

/-- A word selects a command's row exactly when it has the opcode and its operand bytes fit the format. -/
theorem selects_row_iff {w : Word} {i : Instr} :
    w &&& i.row.mask = i.row.pattern ↔ opField w = i.opcode ∧ (operandFieldsOf w).fits i.format = true :=
  and_mask_eq_iff

/-- A word that decodes selects the row of its command. -/
theorem selects_row_of_decode {w : Word} {i : Instr} (h : decode w = .ok i) : w &&& i.row.mask = i.row.pattern := by
  obtain ⟨ho, hf⟩ := fields_of_decode h
  exact selects_row_iff.mpr ⟨ho, hf ▸ (encodedFields i).1⟩

/-- A word that selects a row has the row's opcode. -/
theorem opField_of_selects {w : Word} {row : OpcodeRow} (hrow : row ∈ opcodeTable) (h : w &&& row.mask = row.pattern) :
    opField w = opField row.pattern := by
  obtain ⟨i, rfl⟩ := mem_opcodeTable_iff.mp hrow
  exact (selects_row_iff.mp h).1.trans (Laws.fields_append 0 0 0 i.opcode).1.symm

/-! ### The statements about the encoding (O1 to O4) -/

/-- Settles O2: the encoder puts the opcode and the operand bytes where the decoder reads them. -/
theorem decodeInvertsEncode : Obligations.DecodeInvertsEncode := fun i _ =>
  have hdec := Machine.decode_encode i
  ⟨hdec, decodeTableWord_of_decode hdec⟩

/-- Settles O3: the command has the word's opcode and operand bytes, which are all the bits of the word. -/
theorem encodeInvertsDecode : Obligations.EncodeInvertsDecode := by
  intro w i h
  obtain ⟨ho, hf⟩ := fields_of_decode h
  exact ⟨encode_eq_of_fields ho hf, (encodedFields i).1⟩

/-- Settles O4: every row is a command's, selected by its opcode and its format, and the ten opcodes differ. -/
theorem decodeFollowsOpcodeTable : Obligations.DecodeFollowsOpcodeTable := by
  refine fun w => ⟨fun i h => ?selected, ?decodes, fun row hrow row' hrow' h h' => ?disjoint⟩
  case selected => exact ⟨i.row, mem_opcodeTable_iff.mpr ⟨i, rfl⟩, selects_row_of_decode h, rfl⟩
  case decodes =>
    rintro ⟨row, hrow, h⟩
    obtain ⟨i, rfl⟩ := mem_opcodeTable_iff.mp hrow
    obtain ⟨ho, hfit⟩ := selects_row_iff.mp h
    exact ⟨_, (decode_of_opField ho).trans (decodeAs_eq_ok_iff.mpr ⟨rfl, hfit⟩)⟩
  case disjoint =>
    have hop : opField row.pattern = opField row'.pattern :=
      (opField_of_selects hrow h).symm.trans (opField_of_selects hrow' h')
    exact List.inj_on_of_nodup_map opcodeTable_opcodes_nodup hrow hrow' hop

/-- Settles O1: the decoder evaluated on the 27 words that the test vectors write out. -/
theorem specWordsDecode : Obligations.SpecWordsDecode := by
  unfold Obligations.SpecWordsDecode
  decide

end Sys2Proof

namespace Sys2Proof.Machine

/-! ### Illegal words (O6) -/

/-- A word that selects no row is rejected by the decoder (R93, R94). -/
theorem decode_error_of_no_row {w : Word} (h : ∀ row ∈ opcodeTable, w &&& row.mask ≠ row.pattern) :
    ∃ e, decode w = .error e := by
  cases hd : decode w with
  | error e => exact ⟨e, rfl⟩
  | ok i => exact absurd (selects_row_of_decode hd) (h _ (mem_opcodeTable_iff.mpr ⟨i, rfl⟩))

/-- A word written to CMD while BUSY = 0 is accepted (R26, R110). -/
theorem step_cmdWrite {s : State} {w : Word} {rest : List Event} (hb : s.busy = false)
    (ha : s.agenda = cmdWrite w :: rest) :
    step s = .next (((s.withAgenda rest).accept w).withReply .accepted) := by
  rw [step_cons ha]
  exact congrArg Host.Outcome.next (State.memWrite_reg w (by decide) (by decide) hb)

/-- The engine's turn completes a running illegal word with IllegalCommand (R94). -/
theorem engineTurn_illegal {s : State} {e : DecodeError} (hb : s.busy = true) (hd : decode s.cmdl = .error e) :
    engineTurn s = .next (s.raise .illegalCommand) := by
  rcases engineTurn_cases s with ⟨hidle, _⟩ | ⟨_, _, _, h⟩ | ⟨i, _, hok, _⟩
  · simp [hb] at hidle
  · exact h
  · simp [State.fetch, hd] at hok

/-- Settles O6: the word is accepted, the next turn is the engine's, and the decoder rejects the latched word. -/
theorem illegalWordCompletesWithError : Obligations.IllegalWordCompletesWithError := by
  refine ⟨rfl, fun s w rest hb ha hnone => ?_⟩
  obtain ⟨e, he⟩ := decode_error_of_no_row hnone
  refine ⟨_, _, step_cmdWrite hb ha, rfl, rfl, (step_engineNext (.inl rfl)).trans (engineTurn_illegal rfl he), rfl⟩

end Sys2Proof.Machine
end

section
/-!
PROOFS. The life of a command: its acceptance, what the host can still reach while it runs, and NOP (spec/40_control.md R110, R111, R113).
-/

namespace Sys2Proof.Machine

/-! ### Acceptance (O7) -/

/-- A word written to CMD while BUSY = 1 is dropped and sets PERR (R73, R110). -/
theorem step_cmdWrite_busy {s : State} {w : Word} {rest : List Event} (hb : s.busy = true)
    (ha : s.agenda = cmdWrite w :: rest) :
    step s = .next ((s.withAgenda rest).protocolError.withReply .accepted) := by
  rw [step_cons ha]
  exact congrArg Host.Outcome.next (State.memWrite_busy w (accessOk_reg (by decide) (by decide)) hb)

/-- A host write while BUSY = 1 reaches nothing but PERR and the reply, whether it is refused or dropped (R73). -/
theorem State.memWrite_busy_frame {s : State} (off : Offset) (w : Width) (v : Word) (hb : s.busy = true) :
    ∃ p r, s.memWrite off w v = { s with perr := p, reply := r } := by
  cases hok : accessOk off.toNat w with
  | false => exact ⟨_, _, s.memWrite_refused v hok⟩
  | true => exact ⟨_, _, State.memWrite_busy v hok hb⟩

/-- Settles O7: the two outcomes of a write to CMD; while BUSY = 1 what a read and a write can change holds no
input of the command and not the latch. -/
theorem commandAcceptance : Obligations.CommandAcceptance := by
  refine ⟨fun s w rest hb ha => ?accepted, fun s w rest hb ha => ?dropped, fun s off w v hb => ?inputs⟩
  case accepted => exact ⟨_, step_cmdWrite hb ha, rfl⟩
  case dropped => exact step_cmdWrite_busy hb ha
  case inputs =>
    obtain ⟨r, d, _, hread⟩ := s.memRead_frame off w
    obtain ⟨p, r', hwrite⟩ := State.memWrite_busy_frame off w v hb
    rw [hread, hwrite]
    exact ⟨⟨rfl, rfl, rfl, rfl, fun _ _ => rfl⟩, ⟨rfl, rfl, rfl, rfl, fun _ _ => rfl⟩, rfl, rfl⟩

/-! ### NOP (O8) -/

/-- The meaning of NOP is a successful completion (R113). -/
theorem exec_nop (s : State) : exec .nop s = .next s.complete := rfl

/-- STATUS after a successful completion: DONE, and PERR as it was (R25, R111). -/
theorem State.statusWord_complete (s : State) : s.complete.statusWord = if s.perr then 6 else 2 := by
  rw [State.statusWord, State.errRead_idle s.complete_busy, s.complete_err, s.complete_perr, s.complete_done,
    s.complete_busy]
  cases s.perr <;> decide

/-- Settles O8: the word 0 is NOP's, and NOP is a completion, after which STATUS shows DONE and the old PERR. -/
theorem nopCompletes : Obligations.NopCompletes := by
  refine ⟨decode_encode .nop, rfl, fun s => ⟨exec_nop s, fun hperr => ?_⟩⟩
  exact s.statusWord_complete.trans (by rw [hperr]; rfl)

end Sys2Proof.Machine
end

section
/-!
PROOFS. The field GF(256): doubling as an additive map, the printed tables as the powers of the generator, and the
product of the tables as the carry-less product (spec/41_gf256.md R120 to R127, R134).
-/

namespace Sys2Proof.Machine

/-! ### Doubling (R120, R123) -/

/-- Doubling shifts, and reduces by P when the shifted-out bit was set. -/
theorem xtime_eq_xor (v : Byte) : xtime v = (v <<< 1) ^^^ (if v.msb then 0x1D else 0) := by
  have hmsb : v.msb = true ↔ ¬ v.toNat < 0x80 := by simp [BitVec.msb_eq_decide]
  rw [xtime]
  split_ifs with hlow hset hset
  · exact absurd hlow (hmsb.mp hset)
  · simp
  · rfl
  · exact absurd (hmsb.mpr hlow) hset

/-- Doubling as arithmetic on the byte's value. -/
theorem xtime_toNat (v : Byte) :
    (xtime v).toNat = if v.toNat < 0x80 then 2 * v.toNat else (2 * v.toNat % 256) ^^^ 0x1D := by
  rw [xtime]
  split_ifs with hlow
  · rw [BitVec.toNat_shiftLeft, Nat.shiftLeft_eq]
    omega
  · rw [BitVec.toNat_xor, BitVec.toNat_shiftLeft, Nat.shiftLeft_eq, Nat.mul_comm]
    rfl

theorem xtime_zero : xtime 0 = 0 := rfl

/-- Doubling is additive. -/
theorem xtime_xor (a b : Byte) : xtime (a ^^^ b) = xtime a ^^^ xtime b := by
  simp only [xtime_eq_xor, BitVec.shiftLeft_xor_distrib, BitVec.msb_xor]
  have swap (p q r t : Byte) : p ^^^ q ^^^ (r ^^^ t) = p ^^^ r ^^^ (q ^^^ t) := by ac_rfl
  rw [swap]
  congr 1
  cases a.msb <;> cases b.msb <;> rfl

/-! ### The carry-less product (R125) -/

/-- The carry-less product as a sum of eight terms, of which those at a zero bit are zero. -/
theorem carrylessProduct_eq_foldl (a b : Byte) :
    carrylessProduct a b = (List.range 8).foldl (fun acc i => acc ^^^ (if b.getLsbD i then xtime^[i] a else 0)) 0 := by
  unfold carrylessProduct
  congr 1
  funext acc i
  cases b.getLsbD i <;> simp

/-- The double of a product is the product of the double. -/
theorem carrylessProduct_xtime_left (a b : Byte) : carrylessProduct (xtime a) b = xtime (carrylessProduct a b) := by
  refine List.foldl_hom (init := (0 : Byte)) xtime fun acc i => ?_
  split_ifs
  · rw [xtime_xor, ← Function.iterate_succ_apply, Function.iterate_succ_apply']
  · rfl

theorem carrylessProduct_iterate_xtime_left (n : Nat) (a b : Byte) :
    carrylessProduct (xtime^[n] a) b = xtime^[n] (carrylessProduct a b) :=
  (Function.Semiconj.iterate_right (f := (carrylessProduct · b)) (carrylessProduct_xtime_left · b) n) a

/-- The product with one is the sum of the powers of `x` that occur in the byte. -/
theorem carrylessProduct_one_left (b : Byte) : carrylessProduct 1 b = b := by
  revert b
  decide +kernel

/-- A sum of sums, taken along a list, is the sum of the two sums. -/
theorem foldl_xor_xor (f g : Nat → Byte) (l : List Nat) (x y : Byte) :
    l.foldl (fun acc i => acc ^^^ (f i ^^^ g i)) (x ^^^ y) =
      l.foldl (fun acc i => acc ^^^ f i) x ^^^ l.foldl (fun acc i => acc ^^^ g i) y := by
  induction l generalizing x y with
  | nil => rfl
  | cons i l ih =>
    have swap : x ^^^ y ^^^ (f i ^^^ g i) = (x ^^^ f i) ^^^ (y ^^^ g i) := by ac_rfl
    simp only [List.foldl_cons, swap, ih]

/-- The carry-less product distributes over the sum. -/
theorem carrylessProduct_xor_right (a b c : Byte) :
    carrylessProduct a (b ^^^ c) = carrylessProduct a b ^^^ carrylessProduct a c := by
  simp only [carrylessProduct_eq_foldl, ← foldl_xor_xor]
  congr 1
  funext acc i
  rw [BitVec.getLsbD_xor]
  cases b.getLsbD i <;> cases c.getLsbD i <;> simp

/-! ### The printed tables (R123, R124) -/

/-- Each entry of the antilog table is the double of the one before; the last is the first again. -/
theorem expTable_succ : ∀ i < 255, expTable (i + 1) = xtime (expTable i) := by decide +kernel

/-- Every non-zero byte stands in the antilog table at the place that the log table gives. -/
theorem expTable_gfLog_of_ne_zero : ∀ a : Byte, a ≠ 0 → gfLog a < 255 ∧ expTable (gfLog a) = a := by decide +kernel

/-- The log table gives the place of each of the first 255 entries of the antilog table. -/
theorem gfLog_expTable : ∀ i < 255, gfLog (expTable i) = i := by decide +kernel

/-- The antilog table holds the repeated doubles of one. -/
theorem expTable_eq_iterate {i : Nat} (h : i ≤ 255) : expTable i = xtime^[i] 1 := by
  induction i with
  | zero => rfl
  | succ i ih => rw [expTable_succ i h, ih (Nat.le_of_succ_le h), Function.iterate_succ_apply']

/-- 255 doublings lead back to one: the generator has order 255. -/
theorem isPeriodicPt_xtime_one : Function.IsPeriodicPt xtime 255 1 :=
  (expTable_eq_iterate le_rfl).symm.trans rfl

/-- `gf_exp(e)` is one, doubled `e` times (R127). -/
theorem gfExp_eq_iterate (e : Nat) : gfExp e = xtime^[e] 1 :=
  (expTable_eq_iterate (Nat.mod_lt e (by decide)).le).trans (isPeriodicPt_xtime_one.iterate_mod_apply e)

theorem gfExp_add (i j : Nat) : gfExp (i + j) = xtime^[i] (gfExp j) := by
  rw [gfExp_eq_iterate, gfExp_eq_iterate, Function.iterate_add_apply]

/-- The exponent counts modulo 255 (R127). -/
theorem gfExp_mul_add (j e : Nat) : gfExp (255 * j + e) = gfExp e := by
  rw [gfExp, gfExp, Nat.mul_add_mod]

/-- No power of the generator is zero: doublings of zero would never lead back to one. -/
theorem gfExp_ne_zero (e : Nat) : gfExp e ≠ 0 := by
  intro h
  have hone : gfExp (254 * e + e) = 1 := by
    rw [show 254 * e + e = 255 * e + 0 by omega, gfExp_mul_add]
    rfl
  have hzero : gfExp (254 * e + e) = 0 := by rw [gfExp_add, h, Function.iterate_fixed xtime_zero]
  exact absurd (hone.symm.trans hzero) (by decide)

theorem gfLog_lt {a : Byte} (h : a ≠ 0) : gfLog a < 255 := (expTable_gfLog_of_ne_zero a h).1

/-- `gf_exp` undoes `gf_log` (R134). -/
theorem gfExp_gfLog {a : Byte} (h : a ≠ 0) : gfExp (gfLog a) = a := by
  rw [gfExp, Nat.mod_eq_of_lt (gfLog_lt h)]
  exact (expTable_gfLog_of_ne_zero a h).2

/-- `gf_log` undoes `gf_exp`, up to the period (R134). -/
theorem gfLog_gfExp (e : Nat) : gfLog (gfExp e) = e % 255 := gfLog_expTable _ (Nat.mod_lt e (by decide))

/-- Every byte is zero or a power of the generator. -/
theorem eq_zero_or_eq_gfExp (a : Byte) : a = 0 ∨ ∃ e, a = gfExp e :=
  (eq_or_ne a 0).imp_right fun h => ⟨gfLog a, (gfExp_gfLog h).symm⟩

/-! ### Multiplication (R125) -/

theorem gfMul_zero (a : Byte) : gfMul a 0 = 0 := if_pos (.inr rfl)

theorem zero_gfMul (a : Byte) : gfMul 0 a = 0 := if_pos (.inl rfl)

/-- Powers of the generator are multiplied by adding the exponents. -/
theorem gfMul_gfExp (i j : Nat) : gfMul (gfExp i) (gfExp j) = gfExp (i + j) := by
  rw [gfMul, if_neg (not_or.mpr ⟨gfExp_ne_zero i, gfExp_ne_zero j⟩), gfLog_gfExp, gfLog_gfExp, ← Nat.add_mod]
  rfl

theorem carrylessProduct_gfExp (i j : Nat) : carrylessProduct (gfExp i) (gfExp j) = gfExp (i + j) := by
  rw [gfExp_eq_iterate i, carrylessProduct_iterate_xtime_left, carrylessProduct_one_left, gfExp_add]

theorem zero_carrylessProduct (b : Byte) : carrylessProduct 0 b = 0 := by
  simp only [carrylessProduct_eq_foldl, Function.iterate_fixed xtime_zero, ite_self]
  rfl

theorem carrylessProduct_zero (a : Byte) : carrylessProduct a 0 = 0 := rfl

/-- The table form is the product of the polynomials modulo P, on all pairs. -/
theorem gfMul_eq_carrylessProduct (a b : Byte) : gfMul a b = carrylessProduct a b := by
  obtain rfl | ⟨i, rfl⟩ := eq_zero_or_eq_gfExp a
  · rw [zero_gfMul, zero_carrylessProduct]
  obtain rfl | ⟨j, rfl⟩ := eq_zero_or_eq_gfExp b
  · rw [gfMul_zero, carrylessProduct_zero]
  · rw [gfMul_gfExp, carrylessProduct_gfExp]

theorem gfMul_comm (a b : Byte) : gfMul a b = gfMul b a := by
  simp only [gfMul, or_comm, Nat.add_comm]

/-- Multiplication by a power of the generator is repeated doubling. -/
theorem gfExp_gfMul (i : Nat) (b : Byte) : gfMul (gfExp i) b = xtime^[i] b := by
  rw [gfMul_eq_carrylessProduct, gfExp_eq_iterate, carrylessProduct_iterate_xtime_left, carrylessProduct_one_left]

/-- Doubling `b` some times and multiplying by `c` is multiplying by `c` and doubling as many times. -/
theorem gfMul_assoc (a b c : Byte) : gfMul (gfMul a b) c = gfMul a (gfMul b c) := by
  obtain rfl | ⟨i, rfl⟩ := eq_zero_or_eq_gfExp a
  · simp only [zero_gfMul]
  · rw [gfExp_gfMul, gfExp_gfMul, gfMul_eq_carrylessProduct, carrylessProduct_iterate_xtime_left,
      gfMul_eq_carrylessProduct]

theorem gfMul_gfAdd (a b c : Byte) : gfMul a (gfAdd b c) = gfAdd (gfMul a b) (gfMul a c) := by
  simp only [gfMul_eq_carrylessProduct, gfAdd, carrylessProduct_xor_right]

theorem one_gfMul (a : Byte) : gfMul 1 a = a := gfExp_gfMul 0 a

theorem gfMul_one (a : Byte) : gfMul a 1 = a := (gfMul_comm a 1).trans (one_gfMul a)

/-- The field has no zero divisors. -/
theorem gfMul_eq_zero_iff {a b : Byte} : gfMul a b = 0 ↔ a = 0 ∨ b = 0 := by
  refine ⟨fun h => ?_, fun h => if_pos h⟩
  obtain rfl | ⟨i, rfl⟩ := eq_zero_or_eq_gfExp a
  · exact .inl rfl
  obtain rfl | ⟨j, rfl⟩ := eq_zero_or_eq_gfExp b
  · exact .inr rfl
  · exact absurd ((gfMul_gfExp i j).symm.trans h) (gfExp_ne_zero _)

/-- Multiplication by the generator is doubling. -/
theorem gfMul_alpha : gfMul alpha = xtime := funext (gfExp_gfMul 1)

theorem fieldPower_alpha (i : Nat) : fieldPower alpha i = gfExp i := by
  rw [fieldPower, gfMul_alpha, gfExp_eq_iterate]

/-! ### Division and inverse (R126, R127) -/

/-- The quotient subtracts the logarithms. -/
theorem gfDiv_eq_gfExp {a b : Byte} (ha : a ≠ 0) (hb : b ≠ 0) : gfDiv a b = gfExp (gfLog a + 255 - gfLog b) := by
  rw [gfDiv, if_neg hb, if_neg ha, gfExp]

theorem gfInv_eq_gfExp {a : Byte} (ha : a ≠ 0) : gfInv a = gfExp (255 - gfLog a) := by
  rw [gfInv, if_neg ha, gfExp]

theorem zero_gfDiv {b : Byte} (hb : b ≠ 0) : gfDiv 0 b = 0 := by rw [gfDiv, if_neg hb, if_pos rfl]

/-- The quotient times the divisor is the dividend (R126). -/
theorem gfMul_gfDiv {b : Byte} (a : Byte) (hb : b ≠ 0) : gfMul (gfDiv a b) b = a := by
  obtain rfl | ha := eq_or_ne a 0
  · rw [zero_gfDiv hb, zero_gfMul]
  have hlog := gfLog_lt hb
  calc gfMul (gfDiv a b) b
      = gfMul (gfExp (gfLog a + 255 - gfLog b)) (gfExp (gfLog b)) := by rw [gfDiv_eq_gfExp ha hb, gfExp_gfLog hb]
    _ = gfExp (255 * 1 + gfLog a) := by rw [gfMul_gfExp]; congr 1; omega
    _ = a := by rw [gfExp_mul_add, gfExp_gfLog ha]

theorem gfDiv_self {b : Byte} (hb : b ≠ 0) : gfDiv b b = 1 := by
  rw [gfDiv_eq_gfExp hb hb, Nat.add_sub_cancel_left]
  rfl

/-- An element times its inverse is one (R127). -/
theorem gfMul_gfInv {a : Byte} (ha : a ≠ 0) : gfMul a (gfInv a) = 1 := by
  have hlog := gfLog_lt ha
  calc gfMul a (gfInv a)
      = gfMul (gfExp (gfLog a)) (gfExp (255 - gfLog a)) := by rw [gfInv_eq_gfExp ha, gfExp_gfLog ha]
    _ = gfExp 255 := by rw [gfMul_gfExp, Nat.add_sub_cancel' hlog.le]
    _ = 1 := rfl

/-! ### The statements about the field (O15, O16, O17) -/

/-- Settles O15: the printed tables are checked against doubling and against each other; the powers of the generator
follow by induction. -/
theorem expLogTables : Obligations.ExpLogTables := by
  refine ⟨xtime_toNat, rfl, fun i hi => expTable_succ i (by omega), rfl, fun i hi => ?powers, fun v hv => ?log, rfl⟩
  case powers => rw [expTable_eq_iterate (Nat.le_of_lt_succ hi), fieldPower_alpha, gfExp_eq_iterate]
  case log =>
    obtain ⟨hlt, hexp⟩ := expTable_gfLog_of_ne_zero v hv
    refine ⟨Nat.le_of_lt_succ hlt, hexp, ?_⟩
    rintro i hi rfl
    exact (gfLog_expTable i hi).symm

/-- Settles O16: on powers of the generator both products add the exponents; distributivity comes from the carry-less
form, associativity from repeated doubling. -/
theorem gfMultiplicationLaws : Obligations.GfMultiplicationLaws :=
  ⟨fun _ _ => rfl, gfMul_eq_carrylessProduct, gfMul_comm, gfMul_assoc, gfMul_gfAdd, gfMul_one⟩

/-- Settles O17: the laws of product, quotient and logarithm are those of the exponents, which count modulo 255. -/
theorem gfFieldLaws : Obligations.GfFieldLaws := by
  refine ⟨fun a b _ hb => gfMul_gfDiv a hb, fun a => BitVec.xor_self, fun a ha => gfExp_gfLog ha, fun i hi => ?_,
    fun a b => gfMul_eq_zero_iff, fun a j ha => ?_⟩
  · rw [gfLog_gfExp, Nat.mod_eq_of_lt (Nat.lt_succ_of_le hi)]
  · rw [gfExp_mul_add, gfExp_gfLog ha]

end Sys2Proof.Machine
end

section
/-!
PROOFS. The six GF commands: their words, their completions, and their results in the field (spec/41_gf256.md R128 to
R133).
-/

namespace Sys2Proof

/-! ### The words of the GF commands (R91, R93) -/

/-- A word with a command's opcode and operand bytes that fit its format decodes to that command. -/
theorem decode_eq_ok_of_fits {w : Word} {i : Instr} (hop : opField w = i.opcode)
    (hfit : (operandFieldsOf w).fits i.format = true) : decode w = .ok (i.withFields (operandFieldsOf w)) :=
  (decode_of_opField hop).trans (decodeAs_eq_ok_iff.mpr ⟨rfl, hfit⟩)

/-- A word of format B has no bit set in 31:24. -/
theorem fits_b_of_zField {w : Word} (hz : zField w = 0) : (operandFieldsOf w).fits .b = true :=
  OperandFields.fits_b.mpr (by rw [← hz]; rfl)

/-- A word of format U has no bit set in 31:16. -/
theorem fits_u_of_fields {w : Word} (hb : bField w = 0) (hz : zField w = 0) : (operandFieldsOf w).fits .u = true :=
  OperandFields.fits_u.mpr (by rw [operandFieldsOf, hb, hz])

end Sys2Proof

namespace Sys2Proof.Machine

/-! ### The completions -/

/-- A successful GF command writes RESULT and STATUS only (R111). -/
theorem State.completeGf_eq (v : Byte) (s : State) :
    s.completeGf v = { s with result := v, err := .success, done := true, busy := false } := rfl

theorem exec_gfadd (a b : Byte) (s : State) : exec (.gfadd a b) s = .next (s.completeGf (gfAdd a b)) := rfl

theorem exec_gfmul (a b : Byte) (s : State) : exec (.gfmul a b) s = .next (s.completeGf (gfMul a b)) := rfl

theorem exec_gfexp (a : Byte) (s : State) : exec (.gfexp a) s = .next (s.completeGf (expTable a.toNat)) := rfl

theorem exec_gfdiv {a b : Byte} (s : State) (hb : b ≠ 0) :
    exec (.gfdiv a b) s = .next (s.completeGf (gfDiv a b)) := congrArg _ (if_neg hb)

theorem exec_gfdiv_zero (a : Byte) (s : State) : exec (.gfdiv a 0) s = .next (s.raise .gfDomain) := rfl

theorem exec_gfinv {a : Byte} (s : State) (ha : a ≠ 0) : exec (.gfinv a) s = .next (s.completeGf (gfInv a)) :=
  congrArg _ (if_neg ha)

theorem exec_gfinv_zero (s : State) : exec (.gfinv 0) s = .next (s.raise .gfDomain) := rfl

theorem exec_gflog {a : Byte} (s : State) (ha : a ≠ 0) :
    exec (.gflog a) s = .next (s.completeGf (BitVec.ofNat 8 (gfLog a))) := congrArg _ (if_neg ha)

theorem exec_gflog_zero (s : State) : exec (.gflog 0) s = .next (s.raise .gfDomain) := rfl

/-! ### The statements about the commands (O9 to O14) -/

/-- Settles O9: exclusive or, and its laws. -/
theorem gfaddResult : Obligations.GfaddResult :=
  ⟨fun _ hop hz => decode_eq_ok_of_fits (i := .gfadd 0 0) hop (fits_b_of_zField hz), exec_gfadd,
    fun s => zeros_append (n := 24) s.result,
    fun _ => ⟨BitVec.xor_self, BitVec.xor_zero, BitVec.zero_xor⟩, rfl⟩

/-- Settles O10: the product of the tables is the carry-less product. -/
theorem gfmulResult : Obligations.GfmulResult := by
  refine ⟨fun _ hop hz => decode_eq_ok_of_fits (i := .gfmul 0 0) hop (fits_b_of_zField hz), fun a b s => ?result,
    fun a => ⟨gfMul_zero a, zero_gfMul a⟩, rfl, rfl, rfl⟩
  case result => rw [exec_gfmul, gfMul_eq_carrylessProduct, State.completeGf_eq]

/-- Settles O11: the quotient by tables is a quotient of the carry-less product. -/
theorem gfdivResult : Obligations.GfdivResult := by
  refine ⟨rfl, fun _ hop hz => decode_eq_ok_of_fits (i := .gfdiv 0 0) hop (fits_b_of_zField hz),
    fun a b s hb => ⟨gfDiv a b, ?quotient, exec_gfdiv s hb⟩, exec_gfdiv_zero,
    fun b hb => ⟨zero_gfDiv hb, gfDiv_self hb⟩, rfl, rfl⟩
  case quotient => rw [← gfMul_eq_carrylessProduct, gfMul_gfDiv a hb]

/-- Settles O12: the inverse by tables is an inverse for the carry-less product. -/
theorem gfinvResult : Obligations.GfinvResult := by
  refine ⟨rfl, fun _ hop hb hz => decode_eq_ok_of_fits (i := .gfinv 0) hop (fits_u_of_fields hb hz),
    fun a s ha => ⟨gfInv a, ?inverse, exec_gfinv s ha⟩, exec_gfinv_zero, rfl, rfl⟩
  case inverse => rw [← gfMul_eq_carrylessProduct, gfMul_gfInv ha]

/-- Settles O13: the antilog table holds the repeated doubles of one, entry 255 included. -/
theorem gfexpResult : Obligations.GfexpResult := by
  have hexp (a : Byte) : expTable a.toNat = xtime^[a.toNat] 1 := expTable_eq_iterate (Nat.le_of_lt_succ a.isLt)
  refine ⟨fun _ hop hb hz => decode_eq_ok_of_fits (i := .gfexp 0) hop (fits_u_of_fields hb hz), fun a s => ?result,
    fun a => ?power, rfl, rfl, rfl, rfl, rfl⟩
  case result => rw [exec_gfexp, hexp, State.completeGf_eq]
  case power => rw [hexp, gfExp_eq_iterate]

/-- Settles O14: the logarithm counts the doublings that lead from one to the operand. -/
theorem gflogResult : Obligations.GflogResult := by
  refine ⟨rfl, fun _ hop hb hz => decode_eq_ok_of_fits (i := .gflog 0) hop (fits_u_of_fields hb hz),
    fun a s ha => ⟨gfLog a, Nat.le_of_lt_succ (gfLog_lt ha), ?doublings, exec_gflog s ha⟩, exec_gflog_zero,
    rfl, rfl, rfl⟩
  case doublings => rw [← gfExp_eq_iterate, gfExp_gfLog ha]

end Sys2Proof.Machine
end

section
/-!
PROOFS. Polynomials over GF(256): a sequence of coefficients names a polynomial of Mathlib over a field isomorphic to the
model's, on which the model's operations are the field's (spec/42_polynomial.md R140 to R148, R170).
-/

namespace Sys2Proof.Machine

/-! ### The field as a field of Mathlib (R120 to R127) -/

/-- The bytes with the model's sum and product, inverse of zero zero: a field by the laws of R134. -/
noncomputable abbrev gfField : Field Byte :=
  letI : Add Byte := ⟨gfAdd⟩
  letI : Mul Byte := ⟨gfMul⟩
  letI : Neg Byte := ⟨id⟩
  letI : Inv Byte := ⟨fun a => if a = 0 then 0 else gfInv a⟩
  letI : Zero Byte := ⟨0#8⟩
  letI : One Byte := ⟨1#8⟩
  Field.ofMinimalAxioms Byte
    (add_assoc := BitVec.xor_assoc)
    (zero_add := fun _ => BitVec.zero_xor)
    (neg_add_cancel := fun _ => BitVec.xor_self)
    (mul_assoc := gfMul_assoc)
    (mul_comm := gfMul_comm)
    (one_mul := one_gfMul)
    (mul_inv_cancel := fun a ha => (congrArg (gfMul a) (if_neg ha)).trans (gfMul_gfInv ha))
    (inv_zero := if_pos rfl)
    (left_distrib := gfMul_gfAdd)
    (exists_pair_ne := ⟨0#8, 1#8, by decide⟩)

/-- A bijection of the bytes with a field that takes the model's sum and product to the field's. Working in any such field
keeps the arithmetic of `BitVec` out of the way. -/
structure IsGfIso {F : Type} [Field F] (φ : Byte ≃ F) : Prop where
  map_gfAdd : ∀ a b, φ (gfAdd a b) = φ a + φ b
  map_gfMul : ∀ a b, φ (gfMul a b) = φ a * φ b

theorem exists_gfIso : ∃ (F : Type) (_ : Field F) (φ : Byte ≃ F), IsGfIso φ :=
  ⟨Byte, gfField, Equiv.refl Byte, @IsGfIso.mk Byte gfField _ (fun _ _ => rfl) (fun _ _ => rfl)⟩

section FieldIso
variable {F : Type} [Field F] {φ : Byte ≃ F}

theorem IsGfIso.map_zero (hφ : IsGfIso φ) : φ 0 = 0 :=
  left_eq_add.mp (hφ.map_gfAdd 0 0)

theorem IsGfIso.map_eq_zero_iff (hφ : IsGfIso φ) {a : Byte} : φ a = 0 ↔ a = 0 := by
  rw [← hφ.map_zero, φ.apply_eq_iff_eq]

theorem IsGfIso.map_one (hφ : IsGfIso φ) : φ 1 = 1 :=
  (mul_eq_left₀ (mt hφ.map_eq_zero_iff.mp (by decide))).mp (hφ.map_gfMul 1 1).symm

/-- The sum is also the difference (R122). -/
theorem IsGfIso.map_gfAdd_eq_sub (hφ : IsGfIso φ) (a b : Byte) : φ (gfAdd a b) = φ a - φ b := by
  rw [eq_sub_iff_add_eq, ← hφ.map_gfAdd, gfAdd, gfAdd, BitVec.xor_assoc, BitVec.xor_self, BitVec.xor_zero]

theorem IsGfIso.map_gfInv (hφ : IsGfIso φ) {a : Byte} (ha : a ≠ 0) : φ (gfInv a) = (φ a)⁻¹ :=
  eq_inv_of_mul_eq_one_right (by rw [← hφ.map_gfMul, gfMul_gfInv ha, hφ.map_one])

theorem IsGfIso.map_fieldSum (hφ : IsGfIso φ) (vs : List Byte) : φ (fieldSum vs) = (vs.map φ).sum := by
  have hfoldl (acc : Byte) : φ (vs.foldl gfAdd acc) = φ acc + (vs.map φ).sum := by
    induction vs generalizing acc with
    | nil => simp
    | cons v vs ih => rw [List.foldl_cons, ih, hφ.map_gfAdd, List.map_cons, List.sum_cons, add_assoc]
  rw [fieldSum, hfoldl, hφ.map_zero, zero_add]

theorem IsGfIso.map_fieldPower (hφ : IsGfIso φ) (v : Byte) (i : Nat) : φ (fieldPower v i) = φ v ^ i := by
  induction i with
  | zero => rw [fieldPower, Function.iterate_zero_apply, hφ.map_one, pow_zero]
  | succ i ih => rw [fieldPower, Function.iterate_succ_apply', hφ.map_gfMul, ← fieldPower, ih, pow_succ']

end FieldIso

/-! ### Coefficients and degree (R140, R141) -/

@[simp] theorem pCoef_nil (i : Nat) : pCoef [] i = 0 := rfl

@[simp] theorem pCoef_cons_zero (c : Byte) (p : Poly) : pCoef (c :: p) 0 = c := rfl

@[simp] theorem pCoef_cons_succ (c : Byte) (p : Poly) (i : Nat) : pCoef (c :: p) (i + 1) = pCoef p i := rfl

theorem pSize_cons_eq_zero_iff {c : Byte} {p : Poly} : pSize (c :: p) = 0 ↔ c = 0 ∧ pSize p = 0 := by
  simp only [pSize]
  split_ifs <;> simp_all

theorem pSize_cons_le_succ_iff {c : Byte} {p : Poly} {n : Nat} : pSize (c :: p) ≤ n + 1 ↔ pSize p ≤ n := by
  simp only [pSize]
  split_ifs <;> omega

/-- The size bounds the places of the non-zero coefficients, and is the least such bound. -/
theorem pSize_le_iff {p : Poly} {n : Nat} : pSize p ≤ n ↔ ∀ i, n ≤ i → pCoef p i = 0 := by
  induction p generalizing n with
  | nil => simp [pSize]
  | cons c p ih =>
    rw [← Nat.and_forall_add_one]
    cases n with
    | zero =>
      rw [Nat.le_zero, pSize_cons_eq_zero_iff, ← Nat.le_zero, ih]
      simp
    | succ n => simp [pSize_cons_le_succ_iff, ih]

theorem pSize_eq_zero_iff {p : Poly} : pSize p = 0 ↔ ∀ i, pCoef p i = 0 := by
  rw [← Nat.le_zero, pSize_le_iff]
  simp

/-! ### Sequences as polynomials of Mathlib -/

section ToPolynomial
open Polynomial
variable {F : Type} [Field F] {φ : Byte ≃ F}

/-- The polynomial `p_0 + p_1·x + …` that a sequence names (R140). -/
noncomputable def toPolynomial (φ : Byte ≃ F) : Poly → F[X]
  | [] => 0
  | c :: p => X * toPolynomial φ p + C (φ c)

@[simp] theorem toPolynomial_nil : toPolynomial φ [] = 0 := rfl

@[simp] theorem toPolynomial_cons (c : Byte) (p : Poly) :
    toPolynomial φ (c :: p) = X * toPolynomial φ p + C (φ c) := rfl

theorem coeff_toPolynomial (hφ : IsGfIso φ) (p : Poly) (i : Nat) : (toPolynomial φ p).coeff i = φ (pCoef p i) := by
  induction p generalizing i with
  | nil => simpa using hφ.map_zero.symm
  | cons c p ih => cases i <;> simp [coeff_X_mul, coeff_C, ih]

/-- Sequences name the same polynomial iff they have the same coefficients (R140). -/
theorem toPolynomial_eq_iff (hφ : IsGfIso φ) {p q : Poly} :
    toPolynomial φ p = toPolynomial φ q ↔ ∀ i, pCoef p i = pCoef q i := by
  simp [Polynomial.ext_iff, coeff_toPolynomial hφ]

theorem degree_toPolynomial_lt_iff (hφ : IsGfIso φ) {p : Poly} {n : Nat} :
    (toPolynomial φ p).degree < n ↔ pSize p ≤ n := by
  simp [degree_lt_iff_coeff_zero, pSize_le_iff, coeff_toPolynomial hφ, hφ.map_eq_zero_iff]

theorem toPolynomial_eq_zero_iff (hφ : IsGfIso φ) {p : Poly} : toPolynomial φ p = 0 ↔ pSize p = 0 := by
  rw [pSize_eq_zero_iff, ← toPolynomial_nil, toPolynomial_eq_iff hφ]
  rfl

theorem natDegree_toPolynomial (hφ : IsGfIso φ) (p : Poly) : (toPolynomial φ p).natDegree = pSize p - 1 := by
  obtain hzero | hne := eq_or_ne (toPolynomial φ p) 0
  · rw [hzero, natDegree_zero, (toPolynomial_eq_zero_iff hφ).mp hzero]
  · have hlt (n : Nat) : (toPolynomial φ p).natDegree < n ↔ pSize p ≤ n :=
      (natDegree_lt_iff_degree_lt hne).trans (degree_toPolynomial_lt_iff hφ)
    have hupper := (hlt (pSize p)).mpr le_rfl
    have hlower := (hlt ((toPolynomial φ p).natDegree + 1)).mp (Nat.lt_succ_self _)
    omega

theorem leadingCoeff_toPolynomial (hφ : IsGfIso φ) (p : Poly) : (toPolynomial φ p).leadingCoeff = φ (pLead p) := by
  rw [leadingCoeff, natDegree_toPolynomial hφ, coeff_toPolynomial hφ, pLead]

theorem degree_toPolynomial_lt_degree_iff (hφ : IsGfIso φ) {p q : Poly} :
    (toPolynomial φ p).degree < (toPolynomial φ q).degree ↔ pSize p < pSize q := by
  obtain hq | hq := eq_or_ne (pSize q) 0
  · simp [(toPolynomial_eq_zero_iff hφ).mpr hq, hq]
  · rw [degree_eq_natDegree (mt (toPolynomial_eq_zero_iff hφ).mp hq), natDegree_toPolynomial hφ,
      degree_toPolynomial_lt_iff hφ, Nat.le_sub_one_iff_lt (Nat.pos_of_ne_zero hq)]

/-! ### The operations (R142 to R146) -/

theorem toPolynomial_pAdd (hφ : IsGfIso φ) (p q : Poly) :
    toPolynomial φ (pAdd p q) = toPolynomial φ p + toPolynomial φ q := by
  induction p, q using pAdd.induct with
  | case1 q => simp [pAdd]
  | case2 a p => simp [pAdd]
  | case3 a p b q ih =>
    simp only [pAdd, toPolynomial_cons, ih, hφ.map_gfAdd, C_add]
    ring

/-- Over this field the sum is also the difference (R142). -/
theorem toPolynomial_pAdd_eq_sub (hφ : IsGfIso φ) (p q : Poly) :
    toPolynomial φ (pAdd p q) = toPolynomial φ p - toPolynomial φ q := by
  have hcoeff (a b : Byte) : φ a + φ b = φ a - φ b := by rw [← hφ.map_gfAdd, hφ.map_gfAdd_eq_sub]
  rw [toPolynomial_pAdd hφ]
  ext i
  simp only [coeff_add, coeff_sub, coeff_toPolynomial hφ, hcoeff]

theorem toPolynomial_pScale (hφ : IsGfIso φ) (p : Poly) (c : Byte) :
    toPolynomial φ (pScale p c) = C (φ c) * toPolynomial φ p := by
  induction p with
  | nil => simp [pScale]
  | cons a p ih =>
    rw [pScale] at ih ⊢
    rw [List.map_cons, toPolynomial_cons, ih, toPolynomial_cons, hφ.map_gfMul, C_mul]
    ring

theorem toPolynomial_pShift (hφ : IsGfIso φ) (p : Poly) (d : Nat) :
    toPolynomial φ (pShift p d) = X ^ d * toPolynomial φ p := by
  induction d with
  | zero => simp [pShift]
  | succ d ih =>
    rw [pShift] at ih ⊢
    rw [List.replicate_succ, List.cons_append, toPolynomial_cons, ih, hφ.map_zero, C_0, add_zero, pow_succ', mul_assoc]

theorem toPolynomial_pMonomial (hφ : IsGfIso φ) (c : Byte) (d : Nat) :
    toPolynomial φ (pMonomial c d) = C (φ c) * X ^ d := by
  rw [pMonomial, toPolynomial_pShift hφ, toPolynomial_pScale hφ, toPolynomial_cons, toPolynomial_nil, hφ.map_one, C_1]
  ring

theorem toPolynomial_pMul (hφ : IsGfIso φ) (p q : Poly) :
    toPolynomial φ (pMul p q) = toPolynomial φ p * toPolynomial φ q := by
  induction p with
  | nil => simp [pMul]
  | cons a p ih =>
    rw [pMul, toPolynomial_pAdd hφ, toPolynomial_pScale hφ, toPolynomial_cons, toPolynomial_cons, ih, hφ.map_zero, C_0]
    ring

theorem pEval_cons (c : Byte) (p : Poly) (v : Byte) : pEval (c :: p) v = gfAdd (gfMul (pEval p v) v) c := rfl

/-- Horner's form is evaluation (R146). -/
theorem map_pEval (hφ : IsGfIso φ) (p : Poly) (v : Byte) : φ (pEval p v) = (toPolynomial φ p).eval (φ v) := by
  induction p with
  | nil => simpa [pEval] using hφ.map_zero
  | cons c p ih => simp [pEval_cons, hφ.map_gfAdd, hφ.map_gfMul, ih, mul_comm]

/-- The sum of the terms is evaluation (R146). -/
theorem map_evalBySum (hφ : IsGfIso φ) (p : Poly) (v : Byte) :
    φ (evalBySum p v) = (toPolynomial φ p).eval (φ v) := by
  rw [evalBySum, hφ.map_fieldSum, List.map_map]
  induction p with
  | nil => simp
  | cons c p ih =>
    rw [toPolynomial_cons, eval_add, eval_mul, ← ih, List.length_cons, List.range_succ_eq_map]
    simp [Function.comp_def, hφ.map_gfMul, hφ.map_fieldPower, pow_succ', ← List.sum_map_mul_left, add_comm,
      mul_left_comm]

/-- The value at one is the sum of the coefficients (R146). -/
theorem map_pEval_one (hφ : IsGfIso φ) (p : Poly) : φ (pEval p 1) = (p.map φ).sum := by
  induction p with
  | nil => simpa [pEval] using hφ.map_zero
  | cons c p ih => rw [pEval_cons, gfMul_one, hφ.map_gfAdd, ih, List.map_cons, List.sum_cons, add_comm]

end ToPolynomial

/-! ### Roots (R148, R170) -/

theorem nonzeroBytes_nodup : nonzeroBytes.Nodup := by
  refine List.Nodup.map_on (fun i hi j hj h => ?_) List.nodup_range
  rw [List.mem_range] at hi hj
  have htoNat := congrArg BitVec.toNat h
  rw [BitVec.toNat_ofNat, BitVec.toNat_ofNat] at htoNat
  omega

theorem chienRoots_nodup (p : Poly) : (chienRoots p).Nodup := nonzeroBytes_nodup.filter _

theorem pEval_of_mem_chienRoots {p : Poly} {beta : Byte} (h : beta ∈ chienRoots p) : pEval p beta = 0 :=
  eq_of_beq (List.mem_filter.mp h).2

/-- The non-zero roots are among the roots of the polynomial over the field, of which there are at most as many as its
degree. -/
theorem length_chienRoots_le {p : Poly} (hp : pSize p ≠ 0) : (chienRoots p).length ≤ pSize p - 1 := by
  obtain ⟨F, _, φ, hφ⟩ := exists_gfIso
  have hne : toPolynomial φ p ≠ 0 := mt (toPolynomial_eq_zero_iff hφ).mp hp
  have hnodup : ((chienRoots p).map φ).Nodup := (chienRoots_nodup p).map φ.injective
  have hroots : (((chienRoots p).map φ : List F) : Multiset F) ≤ (toPolynomial φ p).roots := by
    rw [Multiset.le_iff_subset (Multiset.coe_nodup.mpr hnodup)]
    intro x hx
    obtain ⟨beta, hbeta, rfl⟩ := List.mem_map.mp hx
    rw [Polynomial.mem_roots hne, Polynomial.IsRoot, ← map_pEval hφ, pEval_of_mem_chienRoots hbeta, hφ.map_zero]
  calc (chienRoots p).length
      = Multiset.card (((chienRoots p).map φ : List F) : Multiset F) := by simp
    _ ≤ (toPolynomial φ p).natDegree := (Multiset.card_le_card hroots).trans (Polynomial.card_roots' _)
    _ = pSize p - 1 := natDegree_toPolynomial hφ p

/-! ### Long division (R147) -/

theorem pDeg_lt_iff {p q : Poly} : pDeg p < pDeg q ↔ pSize p < pSize q := by
  unfold pDeg
  omega

theorem pDeg_nonneg_iff {p : Poly} : 0 ≤ pDeg p ↔ pSize p ≠ 0 := by
  unfold pDeg
  omega

/-- The division stops at a remainder of lower degree than the divisor. -/
theorem pDivLoop_of_lt {b r : Poly} (fuel : Nat) (q : Poly) (h : pSize r < pSize b) : pDivLoop b fuel q r = (q, r) := by
  cases fuel with
  | zero => rfl
  | succ fuel => exact if_neg (not_le.mpr (pDeg_lt_iff.mpr h))

/-- `c` of the division (R147): the quotient of the leading coefficients. -/
def leadQuotient (r b : Poly) : Byte := gfMul (pLead r) (gfInv (pLead b))

/-- `r` after a pass of the division (R147): the divisor, scaled and shifted under the leading term, is taken off. -/
def passRemainder (r b : Poly) : Poly := pAdd r (pShift (pScale b (leadQuotient r b)) (pSize r - pSize b))

theorem pDivLoop_of_le {b r : Poly} (fuel : Nat) (q : Poly) (h : pSize b ≤ pSize r) :
    pDivLoop b (fuel + 1) q r =
      pDivLoop b fuel (pAdd q (pMonomial (leadQuotient r b) (pSize r - pSize b))) (passRemainder r b) :=
  if_pos (not_lt.mp (mt pDeg_lt_iff.mp (not_lt.mpr h)))

section LongDivision
open Polynomial
variable {F : Type} [Field F] {φ : Byte ≃ F}

theorem toPolynomial_passRemainder (hφ : IsGfIso φ) (r b : Poly) :
    toPolynomial φ (passRemainder r b) =
      toPolynomial φ r - X ^ (pSize r - pSize b) * (C (φ (leadQuotient r b)) * toPolynomial φ b) := by
  rw [passRemainder, toPolynomial_pAdd_eq_sub hφ, toPolynomial_pShift hφ, toPolynomial_pScale hφ]

theorem pLead_ne_zero {p : Poly} (hp : pSize p ≠ 0) : pLead p ≠ 0 := by
  obtain ⟨F, _, φ, hφ⟩ := exists_gfIso
  rw [← hφ.map_eq_zero_iff.ne, ← leadingCoeff_toPolynomial hφ]
  exact leadingCoeff_ne_zero.mpr (mt (toPolynomial_eq_zero_iff hφ).mp hp)

theorem map_leadQuotient (hφ : IsGfIso φ) (r : Poly) {b : Poly} (hb : pSize b ≠ 0) :
    φ (leadQuotient r b) = (toPolynomial φ r).leadingCoeff * (toPolynomial φ b).leadingCoeff⁻¹ := by
  rw [leadQuotient, hφ.map_gfMul, hφ.map_gfInv (pLead_ne_zero hb), leadingCoeff_toPolynomial hφ,
    leadingCoeff_toPolynomial hφ]

/-- The two leading terms cancel, so a pass lowers the degree of the remainder. -/
theorem pSize_passRemainder_lt {b r : Poly} (hb : pSize b ≠ 0) (h : pSize b ≤ pSize r) :
    pSize (passRemainder r b) < pSize r := by
  obtain ⟨F, _, φ, hφ⟩ := exists_gfIso
  have hb0 : toPolynomial φ b ≠ 0 := mt (toPolynomial_eq_zero_iff hφ).mp hb
  have hr0 : toPolynomial φ r ≠ 0 := mt (toPolynomial_eq_zero_iff hφ).mp (by omega)
  have hc0 : φ (leadQuotient r b) ≠ 0 := by
    rw [map_leadQuotient hφ r hb]
    exact mul_ne_zero (leadingCoeff_ne_zero.mpr hr0) (inv_ne_zero (leadingCoeff_ne_zero.mpr hb0))
  have hscaled : C (φ (leadQuotient r b)) * toPolynomial φ b ≠ 0 := mul_ne_zero (C_ne_zero.mpr hc0) hb0
  rw [← degree_toPolynomial_lt_degree_iff hφ, toPolynomial_passRemainder hφ]
  refine degree_sub_lt_left ?degree hr0 ?lead
  case degree =>
    rw [degree_eq_natDegree hr0, degree_eq_natDegree (mul_ne_zero (pow_ne_zero _ X_ne_zero) hscaled),
      natDegree_X_pow_mul _ hscaled, natDegree_C_mul hc0, natDegree_toPolynomial hφ, natDegree_toPolynomial hφ]
    congr 1
    omega
  case lead =>
    rw [leadingCoeff_mul, leadingCoeff_X_pow, one_mul, leadingCoeff_mul, leadingCoeff_C, map_leadQuotient hφ r hb,
      inv_mul_cancel_right₀ (leadingCoeff_ne_zero.mpr hb0)]

/-- The passes keep `q·b + r`, and `pSize r` of them lead below the degree of the divisor. -/
theorem pDivLoop_spec (hφ : IsGfIso φ) {b : Poly} (hb : pSize b ≠ 0) {fuel : Nat} (q : Poly) {r : Poly}
    (hfuel : pSize r ≤ fuel) :
    toPolynomial φ (pDivLoop b fuel q r).1 * toPolynomial φ b + toPolynomial φ (pDivLoop b fuel q r).2 =
        toPolynomial φ q * toPolynomial φ b + toPolynomial φ r ∧
      pSize (pDivLoop b fuel q r).2 < pSize b := by
  induction fuel generalizing q r with
  | zero =>
    have hlt : pSize r < pSize b := by omega
    rw [pDivLoop_of_lt 0 q hlt]
    exact ⟨rfl, hlt⟩
  | succ fuel ih =>
    obtain hlt | hle := lt_or_ge (pSize r) (pSize b)
    · rw [pDivLoop_of_lt _ q hlt]
      exact ⟨rfl, hlt⟩
    · have hpass := pSize_passRemainder_lt hb hle
      obtain ⟨hkeep, hsize⟩ := ih (pAdd q (pMonomial (leadQuotient r b) (pSize r - pSize b)))
        (r := passRemainder r b) (by omega)
      rw [pDivLoop_of_le _ q hle]
      refine ⟨hkeep.trans ?_, hsize⟩
      rw [toPolynomial_pAdd hφ, toPolynomial_pMonomial hφ, toPolynomial_passRemainder hφ]
      ring

/-- The quotient and the remainder make up the dividend (R147). -/
theorem toPolynomial_pDivmod (hφ : IsGfIso φ) (a : Poly) {b : Poly} (hb : pSize b ≠ 0) :
    toPolynomial φ (pDivmod a b).1 * toPolynomial φ b + toPolynomial φ (pDivmod a b).2 = toPolynomial φ a := by
  rw [pDivmod, (pDivLoop_spec hφ hb [] le_rfl).1, toPolynomial_nil, zero_mul, zero_add]

theorem pSize_pDivmod_lt (a : Poly) {b : Poly} (hb : pSize b ≠ 0) : pSize (pDivmod a b).2 < pSize b := by
  obtain ⟨F, _, φ, hφ⟩ := exists_gfIso
  exact (pDivLoop_spec hφ hb [] le_rfl).2

end LongDivision

/-! ### The statements about polynomials (O18, O19, O20) -/

/-- Settles O18: Horner's form and the sum of the terms are both evaluation over the field. -/
theorem polynomialEvaluation : Obligations.PolynomialEvaluation := by
  obtain ⟨F, _, φ, hφ⟩ := exists_gfIso
  refine fun p v => ⟨φ.injective ?sum, ?zero, φ.injective ?one, fun hp => φ.injective ?zeroPoly⟩
  case sum => rw [map_pEval hφ, map_evalBySum hφ]
  case zero =>
    cases p with
    | nil => rfl
    | cons c p =>
      rw [pEval_cons, gfMul_zero, pCoef_cons_zero]
      exact BitVec.zero_xor
  case one => rw [map_pEval_one hφ, hφ.map_fieldSum]
  case zeroPoly =>
    rw [map_pEval hφ, (toPolynomial_eq_zero_iff hφ).mpr (pSize_eq_zero_iff.mpr hp), Polynomial.eval_zero, hφ.map_zero]

/-- Settles O19: evaluation over a field respects sums and products, and a polynomial over a field has at most as many
roots as its degree. -/
theorem evaluationHomomorphismAndRootBound : Obligations.EvaluationHomomorphismAndRootBound := by
  obtain ⟨F, _, φ, hφ⟩ := exists_gfIso
  refine ⟨fun p q v => φ.injective ?sum, fun p q v => φ.injective ?product, fun p hp => ?bound⟩
  case sum => simp only [hφ.map_gfAdd, map_pEval hφ, toPolynomial_pAdd hφ, Polynomial.eval_add]
  case product => simp only [hφ.map_gfMul, map_pEval hφ, toPolynomial_pMul hφ, Polynomial.eval_mul]
  case bound =>
    have hle := length_chienRoots_le (pDeg_nonneg_iff.mp hp)
    unfold pDeg at *
    omega

/-- Settles O20: each pass keeps the sum of remainder and quotient times divisor, and lowers the degree of the remainder. -/
theorem longDivision : Obligations.LongDivision := by
  intro a b hdeg
  have hb := pDeg_nonneg_iff.mp hdeg
  refine ⟨?recompose, pDeg_lt_iff.mpr (pSize_pDivmod_lt a hb), fun hlt => pDivLoop_of_lt _ [] (pDeg_lt_iff.mp hlt)⟩
  obtain ⟨F, _, φ, hφ⟩ := exists_gfIso
  rw [← toPolynomial_eq_iff hφ, toPolynomial_pAdd hφ, toPolynomial_pMul hφ, toPolynomial_pDivmod hφ a hb]

end Sys2Proof.Machine
end

section
/-!
PROOFS. Syndromes, Chien search and Forney's denominator, read over the field isomorphic to the model's
(spec/43_reed_solomon.md R161, R162, R170, R173).
-/

namespace Sys2Proof.Machine

/-! ### Syndromes (R161, R162) -/

@[simp] theorem length_syndromes (e : Nat) (cws : List Byte) : (syndromes e cws).length = e := by
  simp [syndromes]

theorem getD_syndromes {e i : Nat} (cws : List Byte) (hi : i < e) :
    (syndromes e cws).getD i 0 = pEval (receivedPoly cws) (gfExp i) := by
  simp [syndromes, List.getD_eq_getElem?_getD, hi]

/-- The first codeword is the coefficient of the highest power (R161). -/
theorem pCoef_receivedPoly {cws : List Byte} {i : Nat} (hi : i < cws.length) :
    pCoef (receivedPoly cws) i = cws.getD (cws.length - 1 - i) 0 := by
  simp [pCoef, receivedPoly, List.getD_eq_getElem?_getD, List.getElem?_reverse hi]

/-- The locator of position `j` of a block of `n` codewords (R172): the power of the generator that the position counts for. -/
def positionLocator (n j : Nat) : Byte := gfExp (n - 1 - j)

theorem sum_map_range {M : Type} [AddCommMonoid M] (f : Nat → M) (n : Nat) :
    ((List.range n).map f).sum = ∑ i ∈ Finset.range n, f i := rfl

section FieldIso
variable {F : Type} [Field F] {φ : Byte ≃ F}

theorem IsGfIso.map_gfExp (hφ : IsGfIso φ) (i : Nat) : φ (gfExp i) = φ alpha ^ i := by
  rw [← fieldPower_alpha, hφ.map_fieldPower]

/-- The syndrome as a sum over the positions: each codeword times a power of its locator (R161, R162). -/
theorem IsGfIso.map_syndromeBySum (hφ : IsGfIso φ) (cws : List Byte) (i : Nat) :
    φ (syndromeBySum cws i) =
      ∑ j ∈ Finset.range cws.length, φ (cws.getD j 0) * φ (positionLocator cws.length j) ^ i := by
  rw [syndromeBySum, hφ.map_fieldSum, List.map_map, sum_map_range]
  refine Finset.sum_congr rfl fun j _ => ?_
  rw [Function.comp_apply, hφ.map_gfMul, hφ.map_fieldPower, positionLocator, hφ.map_gfExp, ← pow_mul, Nat.mul_comm]

/-- The value of the received polynomial, its terms taken in the order of the codewords (R161, R162). -/
theorem pEval_receivedPoly (cws : List Byte) (i : Nat) :
    pEval (receivedPoly cws) (gfExp i) = syndromeBySum cws i := by
  obtain ⟨F, _, φ, hφ⟩ := exists_gfIso
  apply φ.injective
  rw [map_pEval hφ, ← map_evalBySum hφ, evalBySum, hφ.map_fieldSum, List.map_map, sum_map_range, hφ.map_syndromeBySum]
  rw [receivedPoly, List.length_reverse, ← receivedPoly, ← Finset.sum_range_reflect]
  refine Finset.sum_congr rfl fun j hj => ?_
  rw [Finset.mem_range] at hj
  have hback : cws.length - 1 - (cws.length - 1 - j) = j := by omega
  rw [Function.comp_apply, hφ.map_gfMul, hφ.map_fieldPower, pCoef_receivedPoly (by omega), hback, positionLocator,
    hφ.map_gfExp, hφ.map_gfExp, ← pow_mul, ← pow_mul, Nat.mul_comm]

end FieldIso

theorem getD_syndromes_eq_bySum {e i : Nat} (cws : List Byte) (hi : i < e) :
    (syndromes e cws).getD i 0 = syndromeBySum cws i := by
  rw [getD_syndromes cws hi, pEval_receivedPoly]

/-- The syndrome at one is the sum of the codewords (R162). -/
theorem pEval_receivedPoly_one (cws : List Byte) : pEval (receivedPoly cws) 1 = fieldSum cws := by
  obtain ⟨F, _, φ, hφ⟩ := exists_gfIso
  apply φ.injective
  rw [map_pEval_one hφ, hφ.map_fieldSum, receivedPoly, List.map_reverse, List.sum_reverse]

/-- Settles O23: the received polynomial has the codewords in reverse order, so its value is the sum of the same terms. -/
theorem syndromesAreEvaluations : Obligations.SyndromesAreEvaluations := fun cws e =>
  ⟨fun _ hi => pCoef_receivedPoly hi, length_syndromes e cws,
    fun _ hi => ⟨getD_syndromes cws hi, getD_syndromes_eq_bySum cws hi⟩,
    fun he => (getD_syndromes cws he).trans (pEval_receivedPoly_one cws)⟩

/-! ### Chien search and Forney's denominator (R170, R173) -/

theorem mem_nonzeroBytes_iff {beta : Byte} : beta ∈ nonzeroBytes ↔ beta ≠ 0 := by
  have hlt : beta.toNat < 256 := beta.isLt
  have hzero : beta ≠ 0 ↔ beta.toNat ≠ 0 := BitVec.toNat_ne_iff_ne.symm
  rw [nonzeroBytes, List.mem_map, hzero]
  constructor
  · rintro ⟨i, hi, rfl⟩
    rw [List.mem_range] at hi
    rw [BitVec.toNat_ofNat]
    omega
  · intro hne
    refine ⟨beta.toNat - 1, List.mem_range.mpr (by omega), BitVec.eq_of_toNat_eq ?_⟩
    rw [BitVec.toNat_ofNat]
    omega

theorem mem_chienRoots_iff {sigma : Poly} {beta : Byte} :
    beta ∈ chienRoots sigma ↔ beta ≠ 0 ∧ pEval sigma beta = 0 := by
  rw [chienRoots, List.mem_filter, mem_nonzeroBytes_iff, beq_iff_eq]

section FieldIso
variable {F : Type} [Field F] {φ : Byte ≃ F}

/-- Forney's denominator as a product in the field, over the roots other than `beta` (R173). -/
theorem IsGfIso.map_forneyDen (hφ : IsGfIso φ) {roots : List Byte} (hroots : ∀ beta ∈ roots, beta ≠ 0) (beta : Byte) :
    φ (forneyDen roots beta) = ((roots.filter (· != beta)).map fun beta2 => 1 - (φ beta2)⁻¹ * φ beta).prod := by
  have hfoldl (l : List Byte) (hl : ∀ beta2 ∈ l, beta2 ≠ 0) (den : Byte) :
      φ (l.foldl (fun den beta2 => gfMul den (gfAdd 1 (gfMul (gfInv beta2) beta))) den) =
        φ den * (l.map fun beta2 => 1 - (φ beta2)⁻¹ * φ beta).prod := by
    induction l generalizing den with
    | nil => simp
    | cons b l ih =>
      obtain ⟨hb, hl⟩ := List.forall_mem_cons.mp hl
      rw [List.foldl_cons, ih hl, hφ.map_gfMul, hφ.map_gfAdd_eq_sub, hφ.map_gfMul, hφ.map_gfInv hb, hφ.map_one,
        List.map_cons, List.prod_cons, mul_assoc]
  rw [forneyDen, hfoldl _ (fun b hb => hroots b (List.mem_filter.mp hb).1), hφ.map_one, one_mul]

end FieldIso

/-- No factor of Forney's denominator is zero, because the roots are distinct (R173). -/
theorem forneyDen_ne_zero {roots : List Byte} (hroots : ∀ beta ∈ roots, beta ≠ 0) (beta : Byte) :
    forneyDen roots beta ≠ 0 := by
  obtain ⟨F, _, φ, hφ⟩ := exists_gfIso
  rw [← hφ.map_eq_zero_iff.ne, hφ.map_forneyDen hroots]
  refine List.prod_ne_zero fun hzero => ?_
  obtain ⟨beta2, hmem, hfactor⟩ := List.mem_map.mp hzero
  obtain ⟨hroot, hne⟩ := List.mem_filter.mp hmem
  have hbeta2 : φ beta2 ≠ 0 := hφ.map_eq_zero_iff.ne.mpr (hroots beta2 hroot)
  have heq : φ beta2 = φ beta := by
    rw [← mul_one (φ beta2), sub_eq_zero.mp hfactor, mul_inv_cancel_left₀ hbeta2]
  simp [φ.injective heq] at hne

/-- Settles O22: Chien search filters the non-zero bytes, and distinct roots make no factor of the denominator zero. -/
theorem chienRootsAndForneyDenominator : Obligations.ChienRootsAndForneyDenominator := fun sigma =>
  ⟨chienRoots_nodup sigma, fun _ => mem_chienRoots_iff,
    fun beta _ => forneyDen_ne_zero (fun _ h => (mem_chienRoots_iff.mp h).1) beta⟩

end Sys2Proof.Machine
end

section
/-!
PROOFS. Euclid's algorithm on `x^E` and the syndrome polynomial: what every pass keeps, and how it ends
(spec/43_reed_solomon.md R166 to R169).
-/

namespace Sys2Proof.Machine

open Polynomial

section EuclidInvariant
variable {F : Type} [Field F]

/-- What every pass of Euclid's algorithm keeps (R167), with `S` the syndrome polynomial: both remainders are combinations of
`S` and `x^E`, the two combinations have determinant one, and the multiplier grows as the remainder before shrinks. -/
structure EuclidInv (tmax e : Nat) (S rp r tp t : F[X]) : Prop where
  bezout : ∃ up u, tp * S + up * X ^ e = rp ∧ t * S + u * X ^ e = r ∧ t * up + tp * u = 1
  remainder_lt : r.degree < rp.degree
  multiplier_lt : tp.degree < t.degree
  degree_add : t.degree + rp.degree = e
  above : (tmax : WithBot Nat) ≤ rp.degree

variable {tmax e : Nat} {S rp r tp t q rem : F[X]}

theorem EuclidInv.multiplier_ne_zero (h : EuclidInv tmax e S rp r tp t) : t ≠ 0 :=
  ne_zero_of_degree_gt h.multiplier_lt

/-- Before the first pass (R167). -/
theorem EuclidInv.init (hmax : tmax ≤ e) (hS : S.degree < e) : EuclidInv tmax e S (X ^ e) S 0 1 where
  bezout := ⟨1, 0, by ring, by ring, by ring⟩
  remainder_lt := by rwa [degree_X_pow]
  multiplier_lt := by
    rw [degree_zero, degree_one]
    exact WithBot.bot_lt_coe 0
  degree_add := by rw [degree_one, degree_X_pow, zero_add]
  above := by
    rw [degree_X_pow]
    exact_mod_cast hmax

/-- A pass with quotient `q` keeps the invariant; the sum stands for the difference, since two is zero (R122, R167). -/
theorem EuclidInv.pass (h2 : (2 : F[X]) = 0) (h : EuclidInv tmax e S rp r tp t) (hdiv : q * r + rem = rp)
    (hrem : rem.degree < r.degree) (hr : (tmax : WithBot Nat) ≤ r.degree) :
    EuclidInv tmax e S r rem t (q * t + tp) := by
  have hq : q ≠ 0 := by
    rintro rfl
    rw [zero_mul, zero_add] at hdiv
    exact absurd (hrem.trans h.remainder_lt) (by rw [hdiv]; exact lt_irrefl _)
  have hle (p : F[X]) : p.degree ≤ (q * p).degree := by
    rw [mul_comm]
    exact degree_le_mul_left p hq
  have hdegree_t : (q * t + tp).degree = q.degree + t.degree := by
    rw [degree_add_eq_left_of_degree_lt (h.multiplier_lt.trans_le (hle t)), degree_mul]
  have hdegree_rp : rp.degree = q.degree + r.degree := by
    rw [← hdiv, degree_add_eq_left_of_degree_lt (hrem.trans_le (hle r)), degree_mul]
  refine ⟨?bezout, hrem, ?multiplier, ?sum, hr⟩
  case bezout =>
    obtain ⟨up, u, hrp, hr, hdet⟩ := h.bezout
    refine ⟨u, q * u + up, hr, ?_, ?_⟩
    · linear_combination q * hr + hrp - hdiv + q * r * h2
    · linear_combination hdet + q * t * u * h2
  case multiplier =>
    have hpos : 0 < q.degree := by
      by_contra hle0
      have hlt := h.remainder_lt
      rw [hdegree_rp] at hlt
      exact hlt.not_ge (add_le_of_nonpos_left (not_lt.mp hle0))
    rw [hdegree_t, degree_eq_natDegree h.multiplier_ne_zero]
    rw [degree_eq_natDegree hq] at hpos ⊢
    norm_cast at hpos ⊢
    omega
  case sum => rw [hdegree_t, add_right_comm, ← h.degree_add, hdegree_rp]; ring

end EuclidInvariant

/-! ### The loop -/

section EuclidLoop
variable {F : Type} [Field F] {φ : Byte ≃ F}

/-- Two is zero: every element is its own opposite (R122). -/
theorem IsGfIso.two_eq_zero (hφ : IsGfIso φ) : (2 : F[X]) = 0 := by
  have htwo : (2 : F) = 0 := by
    rw [← one_add_one_eq_two, ← hφ.map_one, ← hφ.map_gfAdd]
    exact hφ.map_zero
  rw [← map_ofNat C 2, htwo, C_0]

theorem natCast_le_degree_toPolynomial_iff (hφ : IsGfIso φ) {p : Poly} {n : Nat} :
    (n : WithBot Nat) ≤ (toPolynomial φ p).degree ↔ n < pSize p := by
  rw [← not_lt, degree_toPolynomial_lt_iff hφ, not_le]

theorem pDeg_lt_natCast_iff {p : Poly} {n : Nat} : pDeg p < n ↔ pSize p ≤ n := by
  unfold pDeg
  omega

/-- The invariant of a state of the loop. -/
abbrev EuclidLoopInv (φ : Byte ≃ F) (tmax e : Nat) (s rp r tp t : Poly) : Prop :=
  EuclidInv tmax e (toPolynomial φ s) (toPolynomial φ rp) (toPolynomial φ r) (toPolynomial φ tp) (toPolynomial φ t)

theorem EuclidLoopInv.pass (hφ : IsGfIso φ) {tmax e : Nat} {s rp r tp t : Poly}
    (h : EuclidLoopInv φ tmax e s rp r tp t) (hr : tmax < pSize r) :
    EuclidLoopInv φ tmax e s r (pDivmod rp r).2 t (pAdd (pMul (pDivmod rp r).1 t) tp) := by
  have hr0 : pSize r ≠ 0 := by omega
  rw [EuclidLoopInv, toPolynomial_pAdd hφ, toPolynomial_pMul hφ]
  exact EuclidInv.pass hφ.two_eq_zero h (toPolynomial_pDivmod hφ rp hr0)
    ((degree_toPolynomial_lt_degree_iff hφ).mpr (pSize_pDivmod_lt rp hr0))
    ((natCast_le_degree_toPolynomial_iff hφ).mpr hr)

/-- The loop ends below `tmax` with the invariant, if there are as many passes as the remainder has places (R167). -/
theorem euclidLoop_spec (hφ : IsGfIso φ) {tmax e fuel : Nat} {s rp r tp t : Poly}
    (h : EuclidLoopInv φ tmax e s rp r tp t) (hfuel : pSize r ≤ fuel) :
    pSize (euclidLoop tmax fuel rp r tp t).2 ≤ tmax ∧
      ∃ rp' tp', EuclidLoopInv φ tmax e s rp' (euclidLoop tmax fuel rp r tp t).2 tp'
        (euclidLoop tmax fuel rp r tp t).1 := by
  induction fuel generalizing rp r tp t with
  | zero => exact ⟨hfuel.trans (Nat.zero_le tmax), rp, tp, h⟩
  | succ fuel ih =>
    rw [euclidLoop]
    split_ifs with hdeg
    · have hr : tmax < pSize r := by rwa [← not_lt, pDeg_lt_natCast_iff, not_le] at hdeg
      have hlt := pSize_pDivmod_lt rp (b := r) (by omega)
      exact ih (h.pass hφ hr) (by omega)
    · exact ⟨pDeg_lt_natCast_iff.mp (not_le.mp hdeg), rp, tp, h⟩

theorem pSize_le_length (p : Poly) : pSize p ≤ p.length :=
  pSize_le_iff.mpr fun _ hi => List.getD_eq_default _ _ hi

/-- Euclid's algorithm: the remainder is below `tmax`, the multiplier is not zero and has degree at most `E - tmax`, and the
remainder is a combination of `S` and `x^E` with coprime multipliers (R167 to R169). -/
theorem euclid_spec (hφ : IsGfIso φ) {e : Nat} {s : Poly} (hs : s.length ≤ e) :
    pSize (euclid e s).2 ≤ e / 2 ∧ toPolynomial φ (euclid e s).1 ≠ 0 ∧
      (toPolynomial φ (euclid e s).1).natDegree ≤ e - e / 2 ∧
      ∃ u, toPolynomial φ (euclid e s).1 * toPolynomial φ s + u * X ^ e = toPolynomial φ (euclid e s).2 ∧
        IsCoprime (toPolynomial φ (euclid e s).1) u := by
  have hsize : pSize s ≤ e := (pSize_le_length s).trans hs
  have hinit : EuclidLoopInv φ (tmaxOf e) e s (pMonomial 1 e) s [] [1] := by
    have hone : toPolynomial φ [1] = 1 := by
      rw [toPolynomial_cons, toPolynomial_nil, hφ.map_one, C_1, mul_zero, zero_add]
    rw [EuclidLoopInv, toPolynomial_pMonomial hφ, hφ.map_one, C_1, one_mul, toPolynomial_nil, hone]
    exact EuclidInv.init (Nat.div_le_self e 2) ((degree_toPolynomial_lt_iff hφ).mpr hsize)
  obtain ⟨hrem, rp, tp, hinv⟩ := euclidLoop_spec hφ hinit hsize
  rw [euclid]
  refine ⟨hrem, hinv.multiplier_ne_zero, ?degree, ?bezout⟩
  case degree =>
    have hrp : toPolynomial φ rp ≠ 0 := ne_zero_of_degree_gt hinv.remainder_lt
    have hadd := hinv.degree_add
    have habove := hinv.above
    rw [degree_eq_natDegree hrp] at hadd habove
    rw [degree_eq_natDegree hinv.multiplier_ne_zero] at hadd
    norm_cast at hadd habove
    unfold tmaxOf at habove
    omega
  case bezout =>
    obtain ⟨up, u, _, hr, hdet⟩ := hinv.bezout
    exact ⟨u, hr, up, toPolynomial φ tp, by linear_combination hdet⟩

end EuclidLoop

/-- Settles O21: the loop ends below `tmax` with its invariant, which gives the key equation and the bounds. -/
theorem euclidKeyEquation : Obligations.EuclidKeyEquation := by
  intro e s hs
  obtain ⟨F, _, φ, hφ⟩ := exists_gfIso
  obtain ⟨hrem, hne, hdegree, u, hkey, -⟩ := euclid_spec hφ hs
  have hsize : pSize (euclid e s).1 ≠ 0 := mt (toPolynomial_eq_zero_iff hφ).mpr hne
  rw [natDegree_toPolynomial hφ] at hdegree
  refine ⟨pDeg_lt_natCast_iff.mpr hrem, pDeg_nonneg_iff.mpr hsize, ?degree, fun i hi => ?key⟩
  case degree =>
    unfold pDeg
    omega
  case key =>
    apply φ.injective
    rw [← coeff_toPolynomial hφ, ← coeff_toPolynomial hφ, ← hkey, toPolynomial_pMul hφ, coeff_add, coeff_mul_X_pow',
      if_neg (by omega), add_zero]

end Sys2Proof.Machine
end

section
/-!
PROOFS. Error patterns over a field: the locator and the evaluator polynomial of some located errors, the key equation they obey, and
that Euclid's algorithm finds them (spec/43_reed_solomon.md R166 to R173, R178).
-/

namespace Sys2Proof.Machine

open Polynomial

/-! ### Locator and evaluator -/

section ErrorPattern
variable {F ι : Type} [Field F]

/-- The polynomial with constant term one whose roots are the inverses of the locators `x` (R168, R170). -/
noncomputable def locatorPoly (J : Finset ι) (x : ι → F) : F[X] := ∏ j ∈ J, (1 - C (x j) * X)

/-- The polynomial that holds the magnitudes `y` of the errors with locators `x` (R168, R173). -/
noncomputable def evaluatorPoly [DecidableEq ι] (J : Finset ι) (x y : ι → F) : F[X] := ∑ j ∈ J, C (y j) * locatorPoly (J.erase j) x

/-- The first `e` power sums of the errors: what the errors add to the syndromes (R162, R166). -/
noncomputable def powerSumPoly (J : Finset ι) (x y : ι → F) (e : Nat) : F[X] :=
  ∑ j ∈ J, C (y j) * ∑ i ∈ Finset.range e, (C (x j) * X) ^ i

variable {J : Finset ι} {x y : ι → F} {e : Nat}

theorem coeff_powerSumPoly (i : Nat) :
    (powerSumPoly J x y e).coeff i = if i < e then ∑ j ∈ J, y j * x j ^ i else 0 := by
  have hterm (j : ι) : (C (y j) * ∑ i ∈ Finset.range e, (C (x j) * X) ^ i).coeff i =
      if i < e then y j * x j ^ i else 0 := by
    have hpower (k : Nat) : ((C (x j) * X) ^ k).coeff i = if i = k then x j ^ k else 0 := by
      rw [mul_pow, ← C_pow, coeff_C_mul_X_pow]
    simp [coeff_C_mul, finsetSum_coeff, hpower]
  rw [powerSumPoly, finsetSum_coeff, Finset.sum_congr rfl fun j _ => hterm j]
  split_ifs
  · rfl
  · exact Finset.sum_const_zero

theorem eval_locatorPoly (v : F) : (locatorPoly J x).eval v = ∏ j ∈ J, (1 - x j * v) := by
  simp [locatorPoly, eval_prod]

theorem coeff_zero_locatorPoly : (locatorPoly J x).coeff 0 = 1 := by
  rw [coeff_zero_eq_eval_zero, eval_locatorPoly]
  simp

theorem locatorPoly_ne_zero : locatorPoly J x ≠ 0 := by
  intro h
  have hcoeff := coeff_zero_locatorPoly (J := J) (x := x)
  rw [h, coeff_zero] at hcoeff
  exact zero_ne_one hcoeff

theorem natDegree_locatorPoly (hx : ∀ j ∈ J, x j ≠ 0) : (locatorPoly J x).natDegree = J.card := by
  have hlinear : ∀ j ∈ J, (1 - C (x j) * X).natDegree = 1 := by
    intro j hj
    rw [show 1 - C (x j) * X = C (-x j) * X + C 1 by rw [C_neg, C_1]; ring]
    exact natDegree_linear (neg_ne_zero.mpr (hx j hj))
  rw [locatorPoly, natDegree_prod, Finset.sum_congr rfl hlinear, Finset.card_eq_sum_ones]
  intro j hj h
  simpa [h] using hlinear j hj

/-- The roots of the locator are the inverses of the locators (R170). -/
theorem eval_locatorPoly_eq_zero_iff (hx : ∀ j ∈ J, x j ≠ 0) {v : F} :
    (locatorPoly J x).eval v = 0 ↔ ∃ j ∈ J, v = (x j)⁻¹ := by
  rw [eval_locatorPoly, Finset.prod_eq_zero_iff]
  refine exists_congr fun j => and_congr_right fun hj => ?_
  rw [sub_eq_zero, eq_comm, mul_comm, mul_eq_one_iff_eq_inv₀ (hx j hj)]

variable [DecidableEq ι]

theorem locatorPoly_eq_mul_erase {j : ι} (hj : j ∈ J) :
    locatorPoly J x = (1 - C (x j) * X) * locatorPoly (J.erase j) x :=
  (Finset.mul_prod_erase J _ hj).symm

/-- The evaluator at the root of one error: every other term has that root (R173). -/
theorem eval_evaluatorPoly {j : ι} (hj : j ∈ J) (hx : x j ≠ 0) :
    (evaluatorPoly J x y).eval (x j)⁻¹ = y j * ∏ k ∈ J.erase j, (1 - x k * (x j)⁻¹) := by
  rw [evaluatorPoly, eval_finsetSum, Finset.sum_eq_single_of_mem j hj]
  · rw [eval_mul, eval_C, eval_locatorPoly]
  · intro k _ hk
    rw [eval_mul, eval_locatorPoly, Finset.prod_eq_zero (Finset.mem_erase.mpr ⟨hk.symm, hj⟩), mul_zero]
    rw [mul_inv_cancel₀ hx, sub_self]

theorem degree_evaluatorPoly_lt (hx : ∀ j ∈ J, x j ≠ 0) : (evaluatorPoly J x y).degree < J.card := by
  rw [← mem_degreeLT]
  refine Submodule.sum_mem _ fun j hj => mem_degreeLT.mpr ?_
  have hlocator : (locatorPoly (J.erase j) x).natDegree < J.card := by
    rw [natDegree_locatorPoly fun k hk => hx k (Finset.mem_of_mem_erase hk)]
    exact Finset.card_erase_lt_of_mem hj
  exact (degree_le_of_natDegree_le (natDegree_C_mul_le _ _)).trans_lt (by exact_mod_cast hlocator)

/-- The key equation of the errors: the locator times the syndromes is the evaluator up to a multiple of `x^E` (R167, R168). -/
theorem locatorPoly_mul_powerSumPoly :
    ∃ v, locatorPoly J x * powerSumPoly J x y e + v * X ^ e = evaluatorPoly J x y := by
  refine ⟨∑ j ∈ J, C (y j) * C (x j) ^ e * locatorPoly (J.erase j) x, ?_⟩
  rw [powerSumPoly, evaluatorPoly, Finset.mul_sum, Finset.sum_mul, ← Finset.sum_add_distrib]
  refine Finset.sum_congr rfl fun j hj => ?_
  have hgeom := mul_neg_geom_sum (C (x j) * X) e
  rw [locatorPoly_eq_mul_erase hj]
  linear_combination C (y j) * locatorPoly (J.erase j) x * hgeom

/-- A linear factor of the locator is coprime to a polynomial that does not have its root. -/
theorem isCoprime_linear {a : F} (ha : a ≠ 0) {p : F[X]} (hp : p.eval a⁻¹ ≠ 0) : IsCoprime (1 - C a * X) p := by
  have hroot : IsCoprime (X - C a⁻¹) p :=
    (irreducible_X_sub_C _).coprime_iff_not_dvd.mpr (mt dvd_iff_isRoot.mp hp)
  have hscale : 1 - C a * X = C (-a) * (X - C a⁻¹) := by
    have hone : C a * C a⁻¹ = 1 := by rw [← C_mul, mul_inv_cancel₀ ha, C_1]
    rw [C_neg]
    linear_combination -hone
  rw [hscale]
  exact (isCoprime_mul_unit_left_left (isUnit_C.mpr (neg_ne_zero.mpr ha).isUnit) _ _).mpr hroot

/-- No root of the locator is one of the evaluator: at the root of an error the evaluator is its magnitude times factors that
distinct locators keep from zero. -/
theorem isCoprime_locatorPoly_evaluatorPoly (hx : ∀ j ∈ J, x j ≠ 0) (hinj : Set.InjOn x J) (hy : ∀ j ∈ J, y j ≠ 0) :
    IsCoprime (locatorPoly J x) (evaluatorPoly J x y) := by
  refine IsCoprime.prod_left fun j hj => isCoprime_linear (hx j hj) ?_
  rw [eval_evaluatorPoly hj (hx j hj)]
  refine mul_ne_zero (hy j hj) (Finset.prod_ne_zero_iff.mpr fun k hk hfactor => ?_)
  obtain ⟨hne, hk⟩ := Finset.mem_erase.mp hk
  exact hne (hinj hk hj ((mul_inv_eq_one₀ (hx j hj)).mp (sub_eq_zero.mp hfactor).symm))

end ErrorPattern

/-! ### The key equation determines the locator -/

section KeyEquation
variable {F : Type} [Field F]

theorem degree_mul_lt {p q : F[X]} {a b e : Nat} (hp : p.natDegree ≤ a) (hq : q.degree < b) (hab : a + b ≤ e) :
    (p * q).degree < e := by
  calc (p * q).degree
      = p.degree + q.degree := degree_mul
    _ ≤ a + q.degree := by gcongr; exact degree_le_of_natDegree_le hp
    _ < a + b := WithBot.add_lt_add_left (WithBot.natCast_ne_bot a) hq
    _ ≤ e := by exact_mod_cast hab

/-- Two solutions of the key equation, one with coprime multipliers and one with coprime multiplier and remainder, are equal up to
a constant factor when the degrees leave no room for a multiple of `x^E`. -/
theorem eq_const_mul_of_keyEquation {e : Nat} {S t r u sigma omega v : F[X]}
    (hkey : t * S + u * X ^ e = r) (hcop : IsCoprime t u)
    (hkey' : sigma * S + v * X ^ e = omega) (hcop' : IsCoprime sigma omega) (hsigma : sigma ≠ 0)
    (hdeg : (t * omega).degree < e) (hdeg' : (sigma * r).degree < e) :
    ∃ c : F, c ≠ 0 ∧ t = C c * sigma ∧ r = C c * omega := by
  have hmod : t * omega - sigma * r = X ^ e * (t * v - sigma * u) := by
    linear_combination sigma * hkey - t * hkey'
  have hzero : X ^ e * (t * v - sigma * u) = 0 := by
    refine eq_zero_of_dvd_of_degree_lt (p := X ^ e) (dvd_mul_right _ _) ?_
    rw [← hmod, degree_X_pow]
    exact (degree_sub_le _ _).trans_lt (max_lt hdeg hdeg')
  have hremainders : t * omega = sigma * r := sub_eq_zero.mp (hmod.trans hzero)
  have hmultipliers : t * v = sigma * u :=
    sub_eq_zero.mp ((mul_eq_zero.mp hzero).resolve_left (pow_ne_zero e X_ne_zero))
  have ht : t ∣ sigma := hcop.dvd_of_dvd_mul_right ⟨v, hmultipliers.symm⟩
  have hs : sigma ∣ t := hcop'.dvd_of_dvd_mul_right ⟨r, hremainders⟩
  obtain ⟨unit, hunit⟩ := associated_of_dvd_dvd hs ht
  obtain ⟨c, hc, hcu⟩ := Polynomial.isUnit_iff.mp unit.isUnit
  rw [← hcu, mul_comm] at hunit
  refine ⟨c, hc.ne_zero, hunit.symm, mul_left_cancel₀ hsigma ?_⟩
  rw [← hremainders, ← hunit]
  ring

end KeyEquation

/-! ### Euclid's algorithm finds the errors -/

section Decoding
variable {F ι : Type} [Field F] [DecidableEq ι] {φ : Byte ≃ F}

/-- From the power sums of at most `tmax` errors Euclid's algorithm computes their locator and evaluator (R167, R168, R178). -/
theorem locatorEvaluator_of_powerSumPoly (hφ : IsGfIso φ) {J : Finset ι} {x y : ι → F} {e : Nat} {s : Poly}
    (hlen : s.length ≤ e) (hs : toPolynomial φ s = powerSumPoly J x y e) (hcard : J.card ≤ e / 2)
    (hx : ∀ j ∈ J, x j ≠ 0) (hinj : Set.InjOn x J) (hy : ∀ j ∈ J, y j ≠ 0) :
    ∃ sigma omega, locatorEvaluator e s = some (sigma, omega) ∧
      toPolynomial φ sigma = locatorPoly J x ∧ toPolynomial φ omega = evaluatorPoly J x y := by
  obtain ⟨hrem, hne, hdegree, u, hkey, hcop⟩ := euclid_spec hφ hlen
  obtain ⟨v, hkey'⟩ := locatorPoly_mul_powerSumPoly (J := J) (x := x) (y := y) (e := e)
  rw [← hs] at hkey'
  obtain ⟨c, hc, ht, hr⟩ := eq_const_mul_of_keyEquation hkey hcop hkey'
    (isCoprime_locatorPoly_evaluatorPoly hx hinj hy) locatorPoly_ne_zero
    (degree_mul_lt hdegree (degree_evaluatorPoly_lt hx) (by omega))
    (degree_mul_lt (natDegree_locatorPoly hx).le ((degree_toPolynomial_lt_iff hφ).mpr hrem) (by omega))
  have hcoef : φ (pCoef (euclid e s).1 0) = c := by
    rw [← coeff_toPolynomial hφ, ht, coeff_C_mul, coeff_zero_locatorPoly, mul_one]
  have hne0 : pCoef (euclid e s).1 0 ≠ 0 := by
    rwa [← hφ.map_eq_zero_iff.ne, hcoef]
  have hscale (p : Poly) (q : F[X]) (h : toPolynomial φ p = C c * q) :
      toPolynomial φ (pScale p (gfInv (pCoef (euclid e s).1 0))) = q := by
    rw [toPolynomial_pScale hφ, hφ.map_gfInv hne0, hcoef, h, ← mul_assoc, ← C_mul, inv_mul_cancel₀ hc, C_1, one_mul]
  exact ⟨_, _, if_neg hne0, hscale _ _ ht, hscale _ _ hr⟩

end Decoding

end Sys2Proof.Machine
end

section
/-!
PROOFS. The decoder on a block within `tmax` of a codeword: the located roots mark the error positions, Forney's formula gives
the errors, and the correction gives the codeword back (spec/43_reed_solomon.md R170 to R174, R178, R179).
-/

namespace Sys2Proof.Machine

open Polynomial

/-! ### Blocks that differ -/

/-- The positions at which two blocks differ. -/
def errorPositions (xs ys : List Byte) : Finset Nat :=
  (Finset.range xs.length).filter fun j => xs.getD j 0 ≠ ys.getD j 0

theorem mem_errorPositions_iff {xs ys : List Byte} {j : Nat} :
    j ∈ errorPositions xs ys ↔ j < xs.length ∧ xs.getD j 0 ≠ ys.getD j 0 := by
  rw [errorPositions, Finset.mem_filter, Finset.mem_range]

theorem distance_eq_card (xs ys : List Byte) : distance xs ys = (errorPositions xs ys).card := by
  have htoFinset : errorPositions xs ys = ((List.range xs.length).filter fun j => xs.getD j 0 != ys.getD j 0).toFinset := by
    ext j
    simp [mem_errorPositions_iff]
  rw [htoFinset, List.toFinset_card_of_nodup (List.nodup_range.filter _), distance]

theorem distance_comm {xs ys : List Byte} (h : xs.length = ys.length) : distance xs ys = distance ys xs := by
  rw [distance_eq_card, distance_eq_card]
  congr 1
  ext j
  rw [mem_errorPositions_iff, mem_errorPositions_iff, h, ne_comm]

/-- Blocks of one length with the same codeword at every position are the same. -/
theorem block_ext {xs ys : List Byte} (h : xs.length = ys.length) (heq : ∀ j < xs.length, xs.getD j 0 = ys.getD j 0) :
    xs = ys := by
  refine List.ext_getElem h fun j hx hy => ?_
  have hj := heq j hx
  rwa [List.getD_eq_getElem _ _ hx, List.getD_eq_getElem _ _ hy] at hj

theorem distance_eq_zero_iff {xs ys : List Byte} (h : xs.length = ys.length) : distance xs ys = 0 ↔ xs = ys := by
  rw [distance_eq_card, Finset.card_eq_zero, Finset.eq_empty_iff_forall_notMem]
  constructor
  · refine fun hnone => block_ext h fun j hj => ?_
    by_contra hne
    exact hnone j (mem_errorPositions_iff.mpr ⟨hj, hne⟩)
  · rintro rfl j hj
    exact (mem_errorPositions_iff.mp hj).2 rfl

/-- A block is a codeword iff the computed syndromes are all zero (R162, R165). -/
theorem allZero_syndromes_iff {e : Nat} {cws : List Byte} : allZero (syndromes e cws) = true ↔ isCodeword e cws := by
  simp [allZero, syndromes, isCodeword, pEval_receivedPoly]

/-! ### Roots and positions (R172) -/

theorem gfInv_ne_zero {a : Byte} (ha : a ≠ 0) : gfInv a ≠ 0 := by
  rw [gfInv_eq_gfExp ha]
  exact gfExp_ne_zero _

theorem gfInv_gfInv {a : Byte} (ha : a ≠ 0) : gfInv (gfInv a) = a := by
  obtain ⟨F, _, φ, hφ⟩ := exists_gfIso
  apply φ.injective
  rw [hφ.map_gfInv (gfInv_ne_zero ha), hφ.map_gfInv ha, inv_inv]

/-- The position in a block of `n` codewords that a root marks (R172, R174). -/
def markedPosition (n : Nat) (beta : Byte) : Nat := n - 1 - rootPosition beta

/-- The root that marks position `j` of a block of `n` codewords: the inverse of the position's locator. -/
def markingRoot (n j : Nat) : Byte := gfInv (positionLocator n j)

theorem positionLocator_ne_zero (n j : Nat) : positionLocator n j ≠ 0 := gfExp_ne_zero _

theorem markingRoot_ne_zero (n j : Nat) : markingRoot n j ≠ 0 := gfInv_ne_zero (positionLocator_ne_zero n j)

/-- A block has at most as many positions as the generator has powers. -/
theorem rootPosition_markingRoot {n j : Nat} (hn : n ≤ 255) (hj : j < n) : rootPosition (markingRoot n j) = n - 1 - j := by
  rw [rootPosition, markingRoot, gfInv_gfInv (positionLocator_ne_zero n j), positionLocator, gfLog_gfExp]
  exact Nat.mod_eq_of_lt (by omega)

theorem markedPosition_markingRoot {n j : Nat} (hn : n ≤ 255) (hj : j < n) : markedPosition n (markingRoot n j) = j := by
  rw [markedPosition, rootPosition_markingRoot hn hj]
  omega

/-! ### The correction (R173, R174) -/

section FieldIso
variable {F : Type} [Field F] {φ : Byte ≃ F}

theorem IsGfIso.map_gfDiv (hφ : IsGfIso φ) (a : Byte) {b : Byte} (hb : b ≠ 0) : φ (gfDiv a b) = φ a / φ b := by
  rw [eq_div_iff (hφ.map_eq_zero_iff.ne.mpr hb), ← hφ.map_gfMul, gfMul_gfDiv a hb]

theorem gfAdd_gfAdd_cancel (a b : Byte) : gfAdd a (gfAdd a b) = b := by
  rw [gfAdd, gfAdd, ← BitVec.xor_assoc, BitVec.xor_self, BitVec.zero_xor]

theorem getD_modify {c : List Byte} {j : Nat} (i : Nat) (f : Byte → Byte) (hj : j < c.length) :
    (c.modify i f).getD j 0 = if i = j then f (c.getD j 0) else c.getD j 0 := by
  rw [List.getD_eq_getElem _ _ (by rwa [List.length_modify]), List.getD_eq_getElem _ _ hj, List.getElem_modify]

/-- A corrected codeword is the received one plus the magnitudes of the roots that mark its position (R174). -/
theorem IsGfIso.map_candidate (hφ : IsGfIso φ) {cws : List Byte} {j : Nat} (omega : Poly) (roots : List Byte)
    (hj : j < cws.length) :
    φ ((candidate cws omega roots).getD j 0) = φ (cws.getD j 0) +
      (roots.map fun beta => if markedPosition cws.length beta = j then φ (magnitude omega roots beta) else 0).sum := by
  have hfoldl (mag : Byte → Byte) (l : List Byte) (c : List Byte) (hc : j < c.length) :
      φ ((l.foldl (fun c beta => c.modify (markedPosition cws.length beta) fun v => gfAdd v (mag beta)) c).getD j 0) =
        φ (c.getD j 0) + (l.map fun beta => if markedPosition cws.length beta = j then φ (mag beta) else 0).sum := by
    induction l generalizing c with
    | nil => simp
    | cons b l ih =>
      rw [List.foldl_cons, ih _ (by rwa [List.length_modify]), getD_modify _ _ hc, List.map_cons, List.sum_cons, ← add_assoc]
      congr 1
      split_ifs
      · rw [hφ.map_gfAdd]
      · rw [add_zero]
  exact hfoldl _ roots cws hj

end FieldIso

/-- A correction changes no more positions than there are roots (R174). -/
theorem distance_candidate_le (cws : List Byte) (omega : Poly) (roots : List Byte) :
    distance cws (candidate cws omega roots) ≤ roots.length := by
  have hsubset : errorPositions cws (candidate cws omega roots) ⊆ roots.toFinset.image (markedPosition cws.length) := by
    intro j hj
    obtain ⟨hlt, hne⟩ := mem_errorPositions_iff.mp hj
    by_contra hunmarked
    obtain ⟨F, _, φ, hφ⟩ := exists_gfIso
    refine hne (φ.injective ?_)
    rw [hφ.map_candidate omega roots hlt, List.sum_eq_zero, add_zero]
    intro v hv
    obtain ⟨beta, hbeta, rfl⟩ := List.mem_map.mp hv
    refine if_neg fun hmark => hunmarked ?_
    exact Finset.mem_image.mpr ⟨beta, List.mem_toFinset.mpr hbeta, hmark⟩
  rw [distance_eq_card]
  exact (Finset.card_le_card hsubset).trans (Finset.card_image_le.trans (List.toFinset_card_le roots))

/-! ### A block near a codeword -/

section NearCodeword
variable {F : Type} [Field F] {φ : Byte ≃ F} {e : Nat} {c cws : List Byte}

/-- The roots that mark the positions at which a block differs from a codeword. -/
def errorRoots (c cws : List Byte) : Finset Byte := (errorPositions c cws).image (markingRoot c.length)

/-- The locator of a root, in the field (R172). -/
def rootLocator (φ : Byte ≃ F) (beta : Byte) : F := (φ beta)⁻¹

/-- The error at the position that a root marks. -/
def rootError (φ : Byte ≃ F) (c cws : List Byte) (beta : Byte) : F :=
  φ (cws.getD (markedPosition c.length beta) 0) - φ (c.getD (markedPosition c.length beta) 0)

theorem markingRoot_injOn (hn : c.length ≤ 255) : Set.InjOn (markingRoot c.length) (errorPositions c cws) := by
  intro i hi j hj h
  have hi := (mem_errorPositions_iff.mp hi).1
  have hj := (mem_errorPositions_iff.mp hj).1
  rw [← markedPosition_markingRoot hn hi, h, markedPosition_markingRoot hn hj]

theorem card_errorRoots (hn : c.length ≤ 255) : (errorRoots c cws).card = distance c cws := by
  rw [errorRoots, Finset.card_image_of_injOn (markingRoot_injOn hn), distance_eq_card]

theorem ne_zero_of_mem_errorRoots {beta : Byte} (h : beta ∈ errorRoots c cws) : beta ≠ 0 := by
  obtain ⟨j, _, rfl⟩ := Finset.mem_image.mp h
  exact markingRoot_ne_zero _ j

theorem rootError_ne_zero (hn : c.length ≤ 255) {beta : Byte} (h : beta ∈ errorRoots c cws) : rootError φ c cws beta ≠ 0 := by
  obtain ⟨j, hj, rfl⟩ := Finset.mem_image.mp h
  obtain ⟨hlt, hne⟩ := mem_errorPositions_iff.mp hj
  rw [rootError, markedPosition_markingRoot hn hlt, sub_ne_zero, φ.injective.ne_iff]
  exact hne.symm

theorem rootPosition_lt_of_mem_errorRoots (hn : c.length ≤ 255) {beta : Byte} (h : beta ∈ errorRoots c cws) :
    rootPosition beta < c.length := by
  obtain ⟨j, hj, rfl⟩ := Finset.mem_image.mp h
  have hlt := (mem_errorPositions_iff.mp hj).1
  rw [rootPosition_markingRoot hn hlt]
  omega

theorem rootLocator_ne_zero (hφ : IsGfIso φ) {beta : Byte} (h : beta ≠ 0) : rootLocator φ beta ≠ 0 :=
  inv_ne_zero (hφ.map_eq_zero_iff.ne.mpr h)

theorem rootLocator_injective : Function.Injective (rootLocator φ) := inv_injective.comp φ.injective

theorem rootLocator_markingRoot (hφ : IsGfIso φ) (n j : Nat) : rootLocator φ (markingRoot n j) = φ (positionLocator n j) := by
  rw [rootLocator, markingRoot, hφ.map_gfInv (positionLocator_ne_zero n j), inv_inv]

/-- A sum over the errors is one over all positions: where the blocks agree there is nothing to add. -/
theorem sum_rootError_mul (hn : c.length ≤ 255) (w : Nat → F) :
    ∑ beta ∈ errorRoots c cws, rootError φ c cws beta * w (markedPosition c.length beta) =
      ∑ j ∈ Finset.range c.length, (φ (cws.getD j 0) - φ (c.getD j 0)) * w j := by
  have hagree : ∀ j ∈ Finset.range c.length, j ∉ errorPositions c cws →
      (φ (cws.getD j 0) - φ (c.getD j 0)) * w j = 0 := by
    intro j hj hnot
    have hsame : c.getD j 0 = cws.getD j 0 := by
      by_contra hne
      exact hnot (mem_errorPositions_iff.mpr ⟨Finset.mem_range.mp hj, hne⟩)
    rw [hsame, sub_self, zero_mul]
  rw [errorRoots, Finset.sum_image (markingRoot_injOn hn)]
  refine Finset.sum_subset_zero_on_sdiff (Finset.filter_subset _ _) ?_ fun j hj => ?_
  · intro j hj
    exact hagree j (Finset.mem_sdiff.mp hj).1 (Finset.mem_sdiff.mp hj).2
  · rw [rootError, markedPosition_markingRoot hn (mem_errorPositions_iff.mp hj).1]

/-- The syndromes of a block are the power sums of its errors: the codeword contributes nothing (R162). -/
theorem map_syndromeBySum_eq_sum_errors (hφ : IsGfIso φ) (hn : c.length ≤ 255) (hlen : c.length = cws.length)
    {i : Nat} (hc : syndromeBySum c i = 0) :
    φ (syndromeBySum cws i) = ∑ beta ∈ errorRoots c cws, rootError φ c cws beta * rootLocator φ beta ^ i := by
  have hlocator : ∀ beta ∈ errorRoots c cws,
      rootLocator φ beta = φ (positionLocator c.length (markedPosition c.length beta)) := by
    intro beta hbeta
    obtain ⟨j, hj, rfl⟩ := Finset.mem_image.mp hbeta
    rw [rootLocator_markingRoot hφ, markedPosition_markingRoot hn (mem_errorPositions_iff.mp hj).1]
  calc φ (syndromeBySum cws i)
      = φ (syndromeBySum cws i) - φ (syndromeBySum c i) := by rw [hc, hφ.map_zero, sub_zero]
    _ = ∑ j ∈ Finset.range c.length, (φ (cws.getD j 0) - φ (c.getD j 0)) * φ (positionLocator c.length j) ^ i := by
        rw [hφ.map_syndromeBySum, hφ.map_syndromeBySum, ← hlen, ← Finset.sum_sub_distrib]
        exact Finset.sum_congr rfl fun j _ => (sub_mul _ _ _).symm
    _ = ∑ beta ∈ errorRoots c cws, rootError φ c cws beta * rootLocator φ beta ^ i := by
        rw [← sum_rootError_mul hn fun j => φ (positionLocator c.length j) ^ i]
        exact Finset.sum_congr rfl fun beta hbeta => by rw [hlocator beta hbeta]

theorem toPolynomial_syndromes (hφ : IsGfIso φ) (hn : c.length ≤ 255) (hlen : c.length = cws.length)
    (hc : isCodeword e c) :
    toPolynomial φ (syndromes e cws) = powerSumPoly (errorRoots c cws) (rootLocator φ) (rootError φ c cws) e := by
  ext i
  rw [coeff_toPolynomial hφ, coeff_powerSumPoly, pCoef]
  split_ifs with hi
  · rw [getD_syndromes_eq_bySum cws hi, map_syndromeBySum_eq_sum_errors hφ hn hlen (hc i hi)]
  · rw [List.getD_eq_default _ _ (by rw [length_syndromes]; omega), hφ.map_zero]

/-- Chien search on the locator of the errors finds the roots that mark them (R170). -/
theorem toFinset_chienRoots (hφ : IsGfIso φ) {sigma : Poly} {J : Finset Byte} (hJ : ∀ beta ∈ J, beta ≠ 0)
    (hsigma : toPolynomial φ sigma = locatorPoly J (rootLocator φ)) : (chienRoots sigma).toFinset = J := by
  ext beta
  have hlocator : ∀ b ∈ J, rootLocator φ b ≠ 0 := fun b hb => rootLocator_ne_zero hφ (hJ b hb)
  rw [List.mem_toFinset, mem_chienRoots_iff, ← hφ.map_eq_zero_iff (a := pEval sigma beta), map_pEval hφ, hsigma,
    eval_locatorPoly_eq_zero_iff hlocator]
  simp only [rootLocator, inv_inv, φ.apply_eq_iff_eq, exists_eq_right']
  exact and_iff_right_of_imp (hJ beta)

/-- Forney's formula gives the magnitude of the error at each root (R173). -/
theorem map_magnitude (hφ : IsGfIso φ) {omega : Poly} {roots : List Byte} (hnodup : roots.Nodup)
    (hroots : ∀ beta ∈ roots, beta ≠ 0) {y : Byte → F}
    (homega : toPolynomial φ omega = evaluatorPoly roots.toFinset (rootLocator φ) y) {beta : Byte} (hbeta : beta ∈ roots) :
    φ (magnitude omega roots beta) = y beta := by
  have hden : φ (forneyDen roots beta) =
      ∏ k ∈ roots.toFinset.erase beta, (1 - rootLocator φ k * (rootLocator φ beta)⁻¹) := by
    rw [hφ.map_forneyDen hroots, ← List.prod_toFinset _ (hnodup.filter _)]
    refine Finset.prod_congr ?_ fun k _ => by rw [rootLocator, rootLocator, inv_inv]
    ext k
    simp [and_comm]
  have hden0 := forneyDen_ne_zero hroots beta
  have heval := eval_evaluatorPoly (y := y) (List.mem_toFinset.mpr hbeta) (rootLocator_ne_zero hφ (hroots beta hbeta))
  rw [← hden, ← homega, rootLocator, inv_inv] at heval
  rw [magnitude, hφ.map_gfDiv _ hden0, map_pEval hφ, heval, mul_div_cancel_right₀ _ (hφ.map_eq_zero_iff.ne.mpr hden0)]

/-- Adding its error to each marked position gives the codeword back (R174); the sum is also the difference (R122). -/
theorem candidate_eq_codeword (hφ : IsGfIso φ) (hn : c.length ≤ 255) (hlen : c.length = cws.length) {omega : Poly}
    {roots : List Byte} (hnodup : roots.Nodup) (hroots : roots.toFinset = errorRoots c cws)
    (hmag : ∀ beta ∈ roots, φ (magnitude omega roots beta) = rootError φ c cws beta) :
    candidate cws omega roots = c := by
  refine block_ext ((candidate_length ..).trans hlen.symm) fun j hj => φ.injective ?_
  rw [candidate_length] at hj
  have hcorrection : (roots.map fun beta =>
      if markedPosition cws.length beta = j then φ (magnitude omega roots beta) else 0).sum =
        φ (cws.getD j 0) - φ (c.getD j 0) := by
    rw [← List.sum_toFinset _ hnodup, hroots]
    calc ∑ beta ∈ errorRoots c cws, (if markedPosition cws.length beta = j then φ (magnitude omega roots beta) else 0)
        = ∑ beta ∈ errorRoots c cws, rootError φ c cws beta * (if markedPosition c.length beta = j then 1 else 0) := by
          refine Finset.sum_congr rfl fun beta hbeta => ?_
          rw [hmag beta (List.mem_toFinset.mp (hroots ▸ hbeta)), mul_ite, mul_one, mul_zero, hlen]
      _ = φ (cws.getD j 0) - φ (c.getD j 0) := by
          rw [sum_rootError_mul hn fun k => if k = j then 1 else 0]
          simp [hlen, hj]
  rw [hφ.map_candidate omega roots hj, hcorrection, ← hφ.map_gfAdd_eq_sub, ← hφ.map_gfAdd, gfAdd_gfAdd_cancel]

/-- The five tests of the decoder pass (R168 to R174). -/
theorem correctBlock_eq_some {sigma omega : Poly} (hfound : locatorEvaluator e (syndromes e cws) = some (sigma, omega))
    (hdeg : pDeg sigma ≤ (tmaxOf e : Int)) (hcount : ((chienRoots sigma).length : Int) = pDeg sigma)
    (hinside : ∀ beta ∈ chienRoots sigma, rootPosition beta < cws.length)
    (hzero : allZero (syndromes e (candidate cws omega (chienRoots sigma))) = true) :
    correctBlock e cws = some (candidate cws omega (chienRoots sigma), (chienRoots sigma).length) := by
  have hany : ¬ ((chienRoots sigma).any fun beta => decide (cws.length ≤ rootPosition beta)) = true := by
    simpa using hinside
  simp only [correctBlock, hfound]
  rw [if_neg (not_lt.mpr hdeg), if_neg (not_not.mpr hcount), if_neg hany, if_pos hzero]

/-- The decoder corrects every block within `tmax` of a codeword, and counts its errors (R178). -/
theorem correctBlock_of_near (hn : c.length ≤ 255) (hlen : c.length = cws.length) (hc : isCodeword e c)
    (hnear : distance c cws ≤ e / 2) : correctBlock e cws = some (c, distance c cws) := by
  obtain ⟨F, _, φ, hφ⟩ := exists_gfIso
  have hlocator : ∀ beta ∈ errorRoots c cws, rootLocator φ beta ≠ 0 :=
    fun beta h => rootLocator_ne_zero hφ (ne_zero_of_mem_errorRoots h)
  obtain ⟨sigma, omega, hfound, hsigma, homega⟩ :=
    locatorEvaluator_of_powerSumPoly hφ (length_syndromes e cws).le (toPolynomial_syndromes hφ hn hlen hc)
      (by rwa [card_errorRoots hn]) hlocator rootLocator_injective.injOn fun _ => rootError_ne_zero hn
  have hroots := toFinset_chienRoots hφ (fun _ => ne_zero_of_mem_errorRoots) hsigma
  have hnodup := chienRoots_nodup sigma
  have hmem (beta : Byte) : beta ∈ chienRoots sigma ↔ beta ∈ errorRoots c cws := by rw [← hroots, List.mem_toFinset]
  have hlength : (chienRoots sigma).length = distance c cws := by
    rw [← List.toFinset_card_of_nodup hnodup, hroots, card_errorRoots hn]
  have hdegree : pDeg sigma = distance c cws := by
    have hne : pSize sigma ≠ 0 := mt (toPolynomial_eq_zero_iff hφ).mpr (hsigma ▸ locatorPoly_ne_zero)
    have hnat := natDegree_locatorPoly hlocator
    rw [← hsigma, natDegree_toPolynomial hφ, card_errorRoots hn] at hnat
    unfold pDeg
    omega
  rw [← hroots] at homega
  have hcandidate : candidate cws omega (chienRoots sigma) = c :=
    candidate_eq_codeword hφ hn hlen hnodup hroots fun beta hbeta =>
      map_magnitude hφ hnodup (fun b hb => (mem_chienRoots_iff.mp hb).1) homega hbeta
  have hpass := correctBlock_eq_some hfound (by rw [hdegree, tmaxOf]; exact_mod_cast hnear) (by rw [hlength, hdegree])
    (fun beta hbeta => hlen ▸ rootPosition_lt_of_mem_errorRoots hn ((hmem beta).mp hbeta))
    (by rw [hcandidate]; exact allZero_syndromes_iff.mpr hc)
  rwa [hcandidate, hlength] at hpass

end NearCodeword

end Sys2Proof.Machine
end

section
/-!
PROOFS. The Reed–Solomon commands: which blocks RSSYN and RSDEC take, what each completion writes and leaves alone, and what RSDEC
guarantees (spec/43_reed_solomon.md R160 to R165, R175 to R179).
-/

namespace Sys2Proof.Machine

/-! ### What the commands write -/

@[simp] theorem State.cell_complete (s : State) (b : Bank) (i : Nat) : s.complete.cell b i = s.cell b i := by
  simp [State.cell]

@[simp] theorem State.cell_raise (e : ErrorCode) (s : State) (b : Bank) (i : Nat) :
    (s.raise e).cell b i = s.cell b i := by
  simp [State.cell]

@[simp] theorem State.cell_setRsStat (z : Bool) (n : Nat) (s : State) (b : Bank) (i : Nat) :
    (s.setRsStat z n).cell b i = s.cell b i := by
  simp [State.cell]

/-- Storing the syndromes writes SYN and nothing else (R163). -/
theorem State.storeSyndromes_frame (s : State) : s.storeSyndromes = { s with syn := s.storeSyndromes.syn } :=
  s.setCells_eq_setMem .syn 0 s.blockSyndromes

/-- SYN holds the syndromes below `E` and its old contents from `E` on (R163, R176). -/
def State.SyndromesStored (s t : State) : Prop :=
  (∀ i < s.blockE, t.cell .syn i = syndromeBySum s.codewords i) ∧
    ∀ i, s.blockE ≤ i → t.cell .syn i = s.cell .syn i

theorem State.SyndromesStored.of_cell_eq {s t : State} (h : ∀ i, t.cell .syn i = s.storeSyndromes.cell .syn i) :
    s.SyndromesStored t := by
  refine ⟨fun i hi => ?_, fun i hi => ?_⟩
  · rw [h, State.cell_storeSyndromes, if_pos ⟨rfl, hi⟩, State.blockSyndromes, getD_syndromes_eq_bySum _ hi]
  · rw [h, State.cell_storeSyndromes, if_neg (by omega)]

/-- RSSYN, and RSDEC on a clean block, complete with the syndromes stored (R163, R165). -/
theorem State.syndromesStored_completion (s : State) (z : Bool) :
    s.SyndromesStored (s.storeSyndromes.setRsStat z 0).complete :=
  .of_cell_eq fun i => by simp

theorem State.allZero_blockSyndromes_iff (s : State) :
    allZero s.blockSyndromes = true ↔ isCodeword s.blockE s.codewords := allZero_syndromes_iff

theorem State.length_codewords_le (s : State) : s.codewords.length ≤ 255 := by
  rw [State.length_codewords]
  exact Nat.le_of_lt_succ s.rsN.isLt

theorem State.getD_codewords (s : State) {j : Nat} (hj : j < s.blockN) : s.codewords.getD j 0 = s.cell .cw j := by
  simp [State.codewords, State.cellsFrom0, List.getD_eq_getElem?_getD, hj]

/-! ### The block configuration and RSSYN (O24, O25) -/

theorem exec_rssyn_badConfig {s : State} (h : s.blockLegal = false) :
    exec .rssyn s = .next (s.completedWith .badConfig) := by
  rcases execRssyn_cases s with ⟨_, hs⟩ | ⟨hlegal, _⟩
  · exact hs
  · simp [h] at hlegal

theorem exec_rssyn_legal {s : State} (h : s.blockLegal = true) :
    exec .rssyn s = .next (s.storeSyndromes.setRsStat (allZero s.blockSyndromes) 0).complete := by
  rcases execRssyn_cases s with ⟨hillegal, _⟩ | ⟨_, hs⟩
  · simp [h] at hillegal
  · exact hs

theorem exec_rsdec_badConfig {s : State} (h : s.blockLegal = false) :
    exec .rsdec s = .next (s.completedWith .badConfig) := by
  rcases execRsdec_cases s with ⟨_, hs⟩ | ⟨hlegal, _⟩ | ⟨hlegal, _⟩ | ⟨_, _, hlegal, _⟩
  · exact hs
  all_goals simp [h] at hlegal

/-- Settles O24: the bounds are arithmetic, and both commands begin with the test. -/
theorem blockConfiguration : Obligations.BlockConfiguration := by
  refine ⟨rfl, fun s => ⟨s.blockLegal_iff, fun hlegal => ?bounds, fun h => ⟨exec_rssyn_badConfig h, exec_rsdec_badConfig h⟩⟩⟩
  case bounds =>
    have hle := State.blockE_le hlegal
    obtain ⟨_, hlt, _⟩ := s.blockLegal_iff.mp hlegal
    refine ⟨rfl, ?_, hle, rfl, ?_⟩
    · unfold State.blockE
      omega
    · unfold tmaxOf
      omega

/-- RSSYN writes SYN, RS_STAT and STATUS (R163). -/
theorem State.syndromesCompletion_frame (s : State) (z : Bool) :
    (s.storeSyndromes.setRsStat z 0).complete =
      { s with syn := s.storeSyndromes.syn, synz := z, nerr := 0, err := .success, done := true, busy := false } :=
  congrArg (fun u : State => (u.setRsStat z 0).complete) s.storeSyndromes_frame

/-- Settles O25: the syndromes are stored by index, and the rest is the frame of the completion. -/
theorem rssynCompletes : Obligations.RssynCompletes := by
  refine ⟨rfl, rfl, fun s h => exec_rssyn_badConfig h, fun s hlegal => ?legal, fun s t hN hK hcw ht => ?sample⟩
  case legal =>
    obtain ⟨hsyn, hkept⟩ := s.syndromesStored_completion (allZero s.blockSyndromes)
    refine ⟨_, exec_rssyn_legal hlegal, hsyn, hkept, s.allZero_blockSyndromes_iff, ?rsStat, s.syndromesCompletion_frame _⟩
    case rsStat =>
      refine (State.rsStatWord_eq _).trans ?_
      simp
  case sample =>
    have hE : s.blockE = 2 := by simp [State.blockE, State.blockN, State.blockK, hN, hK]
    have hlegal : s.blockLegal = true := by simp [State.blockLegal_iff, State.blockN, State.blockK, hN, hK]
    have hzero : allZero s.blockSyndromes = false := by
      rw [State.blockSyndromes, hE, hcw]
      decide
    obtain rfl := Host.Outcome.next.inj ((exec_rssyn_legal hlegal).symm.trans ht)
    obtain ⟨hsyn, -⟩ := s.syndromesStored_completion (allZero s.blockSyndromes)
    refine ⟨?_, ?_, ?_⟩
    · rw [hsyn 0 (by omega), hcw]
      decide
    · rw [hsyn 1 (by omega), hcw]
      decide
    · rw [State.rsStatWord_eq, hzero]
      rfl

/-! ### The outcomes of RSDEC (O26 to O29) -/

/-- The decoder answers exactly the codeword within `tmax` of the block, and its distance. Soundness uses completeness: a correction
changes no more positions than it located, so the block is near the codeword answered, which the decoder must then find (R178, R179). -/
theorem correctBlock_eq_some_iff {e nu : Nat} {cws fixed : List Byte} (hn : cws.length ≤ 255) :
    correctBlock e cws = some (fixed, nu) ↔
      fixed.length = cws.length ∧ isCodeword e fixed ∧ distance fixed cws = nu ∧ nu ≤ e / 2 := by
  constructor
  · intro h
    have hlen := correctBlock_length h
    have hle := correctBlock_count_le h
    obtain ⟨sigma, omega, _, _, _, _, hzero, hfixed, hnu⟩ := correctBlock_some h
    have hcode := allZero_syndromes_iff.mp hzero
    have hdist : distance fixed cws ≤ nu := by
      rw [distance_comm hlen, hfixed, hnu]
      exact distance_candidate_le cws omega (chienRoots sigma)
    have hnear := correctBlock_of_near (by omega) hlen hcode (hdist.trans hle)
    rw [h, Option.some.injEq, Prod.mk.injEq] at hnear
    exact ⟨hlen, hcode, hnear.2.symm, hle⟩
  · rintro ⟨hlen, hcode, rfl, hle⟩
    exact correctBlock_of_near (by omega) hlen hcode hle

/-- No two codewords are within `tmax` of each other: a block between them would have two corrections. -/
theorem eq_of_isCodeword_of_near {e : Nat} {c cws : List Byte} (hn : cws.length ≤ 255) (hlen : c.length = cws.length)
    (hc : isCodeword e c) (hcws : isCodeword e cws) (hnear : distance c cws ≤ e / 2) : c = cws := by
  have hself : distance cws cws = 0 := (distance_eq_zero_iff rfl).mpr rfl
  have hfirst : correctBlock e cws = some (c, distance c cws) :=
    (correctBlock_eq_some_iff hn).mpr ⟨hlen, hc, rfl, hnear⟩
  have hsecond : correctBlock e cws = some (cws, 0) :=
    (correctBlock_eq_some_iff hn).mpr ⟨rfl, hcws, hself, Nat.zero_le _⟩
  rw [hfirst, Option.some.injEq, Prod.mk.injEq] at hsecond
  exact hsecond.1

/-- The state after RSDEC has corrected a block to `fixed`, with `nu` errors (R175). -/
def State.correctedTo (s : State) (fixed : List Byte) (nu : Nat) : State :=
  ((s.storeSyndromes.setCells .cw 0 fixed).setRsStat false nu).complete

/-- RSDEC on a legal block, by whether the block is a codeword and whether the decoder corrects it (R164). -/
theorem exec_rsdec_cases {s : State} (hlegal : s.blockLegal = true) :
    (isCodeword s.blockE s.codewords ∧ exec .rsdec s = .next (s.storeSyndromes.setRsStat true 0).complete) ∨
    (¬ isCodeword s.blockE s.codewords ∧ correctBlock s.blockE s.codewords = none ∧
      exec .rsdec s = .next (s.storeSyndromes.raise .uncorrectableBlock)) ∨
    (∃ fixed nu, ¬ isCodeword s.blockE s.codewords ∧ correctBlock s.blockE s.codewords = some (fixed, nu) ∧
      exec .rsdec s = .next (s.correctedTo fixed nu)) := by
  rw [← s.allZero_blockSyndromes_iff, Bool.not_eq_true]
  rcases execRsdec_cases s with ⟨hillegal, _⟩ | ⟨_, hzero, h⟩ | ⟨_, hzero, hnone, h⟩ | ⟨fixed, nu, _, hzero, hsome, h⟩
  · simp [hlegal] at hillegal
  · exact .inl ⟨hzero, h⟩
  · exact .inr (.inl ⟨hzero, hnone, h⟩)
  · exact .inr (.inr ⟨fixed, nu, hzero, hsome, h⟩)

theorem exec_rsdec_clean {s : State} (hlegal : s.blockLegal = true) (hcode : isCodeword s.blockE s.codewords) :
    exec .rsdec s = .next (s.storeSyndromes.setRsStat true 0).complete := by
  rcases exec_rsdec_cases hlegal with ⟨_, h⟩ | ⟨hnot, _⟩ | ⟨_, _, hnot, _⟩
  · exact h
  all_goals exact absurd hcode hnot

/-- Blocks of the same length in the same cells are the same. -/
theorem State.codewords_congr {s t : State} (hN : t.rsN = s.rsN) (h : ∀ j, t.cell .cw j = s.cell .cw j) :
    t.codewords = s.codewords := by
  rw [State.codewords, State.codewords, State.cellsFrom0, State.cellsFrom0, State.blockN, hN, funext h, State.blockN]

@[simp] theorem State.cell_cw_storeSyndromes (s : State) (j : Nat) : s.storeSyndromes.cell .cw j = s.cell .cw j := by
  rw [State.cell_storeSyndromes, if_neg (by simp)]

theorem State.codewords_clean (s : State) (z : Bool) :
    (s.storeSyndromes.setRsStat z 0).complete.codewords = s.codewords :=
  State.codewords_congr (by simp) fun j => by simp

section CorrectedTo
variable {s : State} {fixed : List Byte} {nu : Nat}

theorem State.correctedTo_frame : s.correctedTo fixed nu = { s with
    cw := (s.correctedTo fixed nu).cw, syn := (s.correctedTo fixed nu).syn, synz := false
    nerr := (s.correctedTo fixed nu).nerr, err := .success, done := true, busy := false } := by
  obtain ⟨m, hsyn⟩ : ∃ m, s.storeSyndromes = s.setMem .syn m := ⟨_, s.setCells_eq_setMem .syn 0 s.blockSyndromes⟩
  obtain ⟨m', hcw⟩ : ∃ m', s.storeSyndromes.setCells .cw 0 fixed = s.storeSyndromes.setMem .cw m' :=
    ⟨_, s.storeSyndromes.setCells_eq_setMem .cw 0 fixed⟩
  rw [State.correctedTo, hcw, hsyn]
  rfl

theorem State.syndromesStored_correctedTo : s.SyndromesStored (s.correctedTo fixed nu) :=
  .of_cell_eq fun i => by simp [State.correctedTo, State.cell_setCells_otherBank]

/-- The correction writes the block and no other codeword (R175). -/
theorem State.cell_cw_correctedTo (hlen : fixed.length = s.codewords.length) (j : Nat) :
    (s.correctedTo fixed nu).cell .cw j = if j < s.blockN then fixed.getD j 0 else s.cell .cw j := by
  rw [State.length_codewords] at hlen
  simp [State.correctedTo, State.cell_setCells, hlen]

theorem State.codewords_correctedTo (hlen : fixed.length = s.codewords.length) :
    (s.correctedTo fixed nu).codewords = fixed := by
  have hN : (s.correctedTo fixed nu).blockN = s.blockN := by simp [State.correctedTo, State.blockN]
  refine block_ext (by rw [State.length_codewords, hN, hlen, State.length_codewords]) fun j hj => ?_
  rw [State.length_codewords] at hj
  rw [State.getD_codewords _ hj, State.cell_cw_correctedTo hlen, if_pos (hN ▸ hj)]

/-- NERR holds the number of errors, which is at most 127 (R30, R175). -/
theorem State.nerr_correctedTo (hlegal : s.blockLegal = true) (hnu : nu ≤ s.blockE / 2) :
    (s.correctedTo fixed nu).nerr.toNat = nu := by
  have hle := State.blockE_le hlegal
  exact Nat.mod_eq_of_lt (by omega)

end CorrectedTo

/-- Settles O26: the syndromes stored are those of a codeword. -/
theorem rsdecAcceptsCleanBlock : Obligations.RsdecAcceptsCleanBlock := by
  intro s hlegal hcode
  obtain ⟨hsyn, hkept⟩ := s.syndromesStored_completion true
  exact ⟨_, exec_rsdec_clean hlegal hcode, fun i hi => (hsyn i hi).trans (hcode i hi), hkept, s.syndromesCompletion_frame true⟩

/-- Settles O27: one case for each outcome; a correction leads to a codeword, so it corrects at least one error. -/
theorem rsdecOutcomes : Obligations.RsdecOutcomes := by
  refine ⟨rfl, rfl, rfl, State.rsStatWord_eq, fun s => ?_⟩
  cases hlegal : s.blockLegal with
  | false => exact ⟨_, exec_rsdec_badConfig hlegal, .inl ⟨rfl, rfl⟩⟩
  | true =>
    rcases exec_rsdec_cases hlegal with ⟨hcode, h⟩ | ⟨hcode, _, h⟩ | ⟨fixed, nu, hcode, hfixed, h⟩
    · obtain ⟨hsyn, hkept⟩ := s.syndromesStored_completion true
      exact ⟨_, h, .inr ⟨rfl, hsyn, hkept, .inl ⟨hcode, s.syndromesCompletion_frame true⟩⟩⟩
    · obtain ⟨hsyn, hkept⟩ : s.SyndromesStored (s.storeSyndromes.raise .uncorrectableBlock) :=
        .of_cell_eq fun i => by simp
      exact ⟨_, h, .inr ⟨rfl, hsyn, hkept, .inr (.inr ⟨hcode, congrArg (State.raise _) s.storeSyndromes_frame⟩)⟩⟩
    · obtain ⟨hsyn, hkept⟩ := State.syndromesStored_correctedTo (s := s) (fixed := fixed) (nu := nu)
      obtain ⟨hlen, hfixedCode, hdist, hnu⟩ := (correctBlock_eq_some_iff s.length_codewords_le).mp hfixed
      have hpos : nu ≠ 0 := by
        rintro rfl
        rw [distance_eq_zero_iff hlen] at hdist
        exact hcode (hdist ▸ hfixedCode)
      refine ⟨_, h, .inr ⟨rfl, hsyn, hkept,
        .inr (.inl ⟨hcode, ?some, ?bound, ?distance, fun j hj => ?beyond, State.correctedTo_frame⟩)⟩⟩
      case beyond => rw [State.cell_cw_correctedTo hlen, if_neg (by omega)]
      all_goals rw [State.nerr_correctedTo hlegal hnu]
      case some => omega
      case bound => exact hnu
      case distance => rw [State.codewords_correctedTo hlen, distance_comm hlen.symm, hdist]

/-- Settles O28: the decoder answers only codewords within `tmax` of the block. -/
theorem rsdecSuccessLeavesCodeword : Obligations.RsdecSuccessLeavesCodeword := by
  intro s hlegal
  rcases exec_rsdec_cases hlegal with ⟨hcode, h⟩ | ⟨_, _, h⟩ | ⟨fixed, nu, _, hfixed, h⟩
  · refine ⟨_, h, .inr ⟨rfl, ?_⟩⟩
    rw [s.codewords_clean]
    exact ⟨hcode, (distance_eq_zero_iff rfl).mpr rfl, Nat.zero_le _⟩
  · exact ⟨_, h, .inl ⟨rfl, fun j => by simp⟩⟩
  · obtain ⟨hlen, hfixedCode, hdist, hnu⟩ := (correctBlock_eq_some_iff s.length_codewords_le).mp hfixed
    refine ⟨_, h, .inr ⟨rfl, ?_⟩⟩
    rw [State.nerr_correctedTo hlegal hnu, State.codewords_correctedTo hlen, distance_comm hlen.symm]
    exact ⟨hfixedCode, hdist, hnu⟩

/-- Settles O29: the decoder answers the codeword, and a codeword near another is the same one. -/
theorem rsdecCorrectsUpToTmax : Obligations.RsdecCorrectsUpToTmax := by
  intro s c hlegal hlength hc hnear
  have hlen : c.length = s.codewords.length := by rw [hlength, State.length_codewords]
  have hfound : correctBlock s.blockE s.codewords = some (c, distance c s.codewords) :=
    (correctBlock_eq_some_iff s.length_codewords_le).mpr ⟨hlen, hc, rfl, hnear⟩
  rcases exec_rsdec_cases hlegal with ⟨hcode, h⟩ | ⟨_, hnone, _⟩ | ⟨fixed, nu, hcode, hfixed, h⟩
  · obtain rfl := eq_of_isCodeword_of_near s.length_codewords_le hlen hc hcode hnear
    have hzero : distance s.codewords s.codewords = 0 := (distance_eq_zero_iff rfl).mpr rfl
    rw [hzero]
    exact ⟨_, h, rfl, s.codewords_clean true, rfl, rfl⟩
  · rw [hnone] at hfound
    cases hfound
  · rw [hfixed, Option.some.injEq, Prod.mk.injEq] at hfound
    obtain ⟨rfl, rfl⟩ := hfound
    have hpos : distance fixed s.codewords ≠ 0 := by
      rw [Ne, distance_eq_zero_iff hlen]
      rintro rfl
      exact hcode hc
    exact ⟨_, h, rfl, State.codewords_correctedTo hlen, State.nerr_correctedTo hlegal hnear, (decide_eq_false hpos).symm⟩

/-- V-RS9 (a): `SETRS 7,3`, so `tmax` is 2, and a block between two codewords. -/
def ambiguousState : State :=
  { State.reset with
    rsN := 7, rsK := 3, cw := ⟨0, [(0, 1), (1, 2), (2, 2), (3, 132), (4, 197), (5, 142), (6, 246)]⟩ }

/-- The codeword `B` of V-RS9, three positions away from the block. -/
def fartherCodeword : List Byte := [1, 2, 3, 139, 243, 142, 246]

/-- The codeword `B2` of V-RS9, two positions away from the block. -/
def nearerCodeword : List Byte := [1, 2, 2, 132, 197, 246, 182]

theorem ambiguousState_codewords : ambiguousState.codewords = [1, 2, 2, 132, 197, 142, 246] := by decide

theorem isCodeword_fartherCodeword : isCodeword 4 fartherCodeword := by
  unfold isCodeword
  decide +kernel

theorem isCodeword_nearerCodeword : isCodeword 4 nearerCodeword := by
  unfold isCodeword
  decide +kernel

/-- Settles O30, on V-RS9 (a): RSDEC corrects the block to the nearer codeword, which is within `tmax`, when the farther one may
have been meant. -/
theorem rsdecCanMiscorrect : Obligations.RsdecCanMiscorrect := by
  have hlegal : ambiguousState.blockLegal = true := by decide
  have hE : ambiguousState.blockE = 4 := rfl
  have hnear : distance nearerCodeword ambiguousState.codewords ≤ ambiguousState.blockE / 2 := by
    rw [ambiguousState_codewords]
    decide
  have hfar : distance fartherCodeword ambiguousState.codewords = ambiguousState.blockE / 2 + 1 := by
    rw [ambiguousState_codewords]
    decide
  obtain ⟨t, ht, herr, hcw, -⟩ := rsdecCorrectsUpToTmax ambiguousState nearerCodeword hlegal rfl
    (hE ▸ isCodeword_nearerCodeword) hnear
  refine ⟨ambiguousState, t, fartherCodeword, hlegal, rfl, hE ▸ isCodeword_fartherCodeword, hfar, ht, herr, ?_, ?_⟩
  · rw [hcw, hE]
    exact isCodeword_nearerCodeword
  · rw [hcw]
    decide

end Sys2Proof.Machine
end

section
/-!
PROOFS. The binarizer's blocks: how they cover a side of the image, and the range of the luma of a block's pixels
(spec/44_binarizer.md R192 to R195, R200).
-/

namespace Sys2Proof.Machine

/-! ### Blocks along a side (O37) -/

/-- The blocks of a side cover it (R193). -/
theorem le_blocksAlong_mul (d : Nat) {size : Nat} (hs : 1 ≤ size) : d ≤ blocksAlong d size * size := by
  have hdiv : d + size - 1 < (d + size - 1) / size * size + size := Nat.lt_div_mul_add hs
  rw [blocksAlong]
  omega

/-- A block lies inside the image (R194). -/
theorem blockOrigin_add_le (index : Nat) {size d : Nat} (h : size ≤ d) : blockOrigin index size d + size ≤ d := by
  unfold blockOrigin
  omega

section BlockOfCoordinate
variable {v d size : Nat}

theorem blockOf_lt (hs : 1 ≤ size) (hv : v < d) : blockOf v d size < blocksAlong d size := by
  have hone : 1 ≤ blocksAlong d size := one_le_blocksAlong hs (by omega)
  have hcover := le_blocksAlong_mul d hs
  unfold blockOf
  split
  · omega
  · exact (Nat.div_lt_iff_lt_mul hs).mpr (hv.trans_le hcover)

/-- The last block is clipped to the end of the side (R194). -/
theorem blockOrigin_last (hs : 1 ≤ size) : blockOrigin (blocksAlong d size - 1) size d = d - size := by
  have hcover := le_blocksAlong_mul d hs
  rw [blockOrigin, Nat.sub_mul]
  omega

/-- A coordinate is below `d - S`, in an unclipped block, or in the last block (R200). -/
theorem blockOrigin_blockOf (hs : 1 ≤ size) :
    blockOrigin (blockOf v d size) size d = if d - size ≤ v then d - size else v / size * size := by
  unfold blockOf
  split
  · exact blockOrigin_last hs
  · have hle : v / size * size ≤ v := Nat.div_mul_le_self v size
    exact min_eq_left (by omega)

end BlockOfCoordinate

/-- Settles O37, by the two cases of R200: the last block begins at `d - S`, any other at a multiple of `S`. -/
theorem pixelLiesInItsBlock : Obligations.PixelLiesInItsBlock := by
  intro v d size hs hd hv
  have hle : v / size * size ≤ v := Nat.div_mul_le_self v size
  have hlt : v < v / size * size + size := Nat.lt_div_mul_add hs
  refine ⟨blockOf_lt hs hv, ?_, ?_, blockOrigin_add_le _ hd⟩ <;> rw [blockOrigin_blockOf hs] <;> split <;> omega

/-! ### The range of a block (O35) -/

/-- Taking minima along a list finds its least value, the start counted in. -/
theorem foldl_min_isLeast {α : Type} [LinearOrder α] (ls : List α) (a : α) : IsLeast {l | l ∈ a :: ls} (ls.foldl min a) := by
  induction ls generalizing a with
  | nil => simp [IsLeast, lowerBounds]
  | cons b ls ih =>
    obtain ⟨hmem, hle⟩ := ih (min a b)
    have hstart : ls.foldl min (min a b) ≤ min a b := hle List.mem_cons_self
    refine ⟨?_, ?_⟩
    · rcases List.mem_cons.mp hmem with h | h
      · rw [List.foldl_cons, h]
        rcases min_choice a b with hab | hab <;> simp [hab]
      · simp [h]
    · intro l hl
      rcases (by simpa using hl : l = a ∨ l = b ∨ l ∈ ls) with rfl | rfl | hl
      · exact hstart.trans (min_le_left _ _)
      · exact hstart.trans (min_le_right _ _)
      · exact hle (List.mem_cons_of_mem _ hl)

/-- A start that no element exceeds does not count. -/
theorem foldl_min_isLeast_of_le {α : Type} [LinearOrder α] {ls : List α} {a : α} (hne : ls ≠ []) (h : ∀ l ∈ ls, l ≤ a) :
    IsLeast {l | l ∈ ls} (ls.foldl min a) := by
  cases ls with
  | nil => contradiction
  | cons b ls =>
    rw [List.foldl_cons, min_eq_right (h b List.mem_cons_self)]
    exact foldl_min_isLeast ls b

section LumaRange
variable {ls : List Nat}

/-- The minimum of some bytes is the least of them (R195). -/
theorem lumaRange_mn_isLeast (hne : ls ≠ []) (hbyte : ∀ l ∈ ls, l ≤ 255) : IsLeast {l | l ∈ ls} (lumaRange ls).mn :=
  foldl_min_isLeast_of_le hne hbyte

/-- The maximum is the greatest: a maximum is a minimum in the reverse order (R195). -/
theorem lumaRange_mx_isGreatest (hne : ls ≠ []) : IsGreatest {l | l ∈ ls} (lumaRange ls).mx :=
  foldl_min_isLeast_of_le (α := Natᵒᵈ) hne fun l _ => Nat.zero_le l

theorem lumaRange_mn_le (ls : List Nat) : (lumaRange ls).mn ≤ 255 := (foldl_min_isLeast ls 255).2 List.mem_cons_self

end LumaRange

/-- The pixels of a block (R194). -/
theorem mem_blockLumas_iff {lum : Nat → Nat} {w size ox oy l : Nat} :
    l ∈ blockLumas lum w size ox oy ↔
      ∃ x y, ox ≤ x ∧ x < ox + size ∧ oy ≤ y ∧ y < oy + size ∧ lum (y * w + x) = l := by
  simp only [blockLumas, List.mem_flatMap, List.mem_map, List.mem_range]
  constructor
  · rintro ⟨dy, hdy, dx, hdx, rfl⟩
    exact ⟨ox + dx, oy + dy, by omega, by omega, by omega, by omega, rfl⟩
  · rintro ⟨x, y, hx, hx', hy, hy', rfl⟩
    refine ⟨y - oy, by omega, x - ox, by omega, ?_⟩
    rw [Nat.add_sub_cancel' hy, Nat.add_sub_cancel' hx]

theorem blockLumas_ne_nil {lum : Nat → Nat} {w size ox oy : Nat} (hs : 1 ≤ size) : blockLumas lum w size ox oy ≠ [] :=
  List.ne_nil_of_mem (mem_blockLumas_iff.mpr ⟨ox, oy, le_rfl, by omega, le_rfl, by omega, rfl⟩)

theorem one_le_blockSize (w h : Nat) : 1 ≤ blockSize w h := (by decide : 1 ≤ 16).trans (le_blockSize w h)

/-- A legal image is at least one block wide and high (R191). -/
theorem blockSize_le_sides {w h : Nat} (hw : 16 ≤ w) (hh : 16 ≤ h) : blockSize w h ≤ w ∧ blockSize w h ≤ h := by
  change max (min w h / 40) 16 ≤ w ∧ max (min w h / 40) 16 ≤ h
  omega

/-- Settles O35: the two folds find the least and the greatest luma of the block's pixels. -/
theorem blockRangeIsMinMax : Obligations.BlockRangeIsMinMax := by
  intro lum w h bx by' hlum hw hh size ox oy r
  obtain ⟨hsw, hsh⟩ := blockSize_le_sides hw hh
  have hne : blockLumas lum w size ox oy ≠ [] := blockLumas_ne_nil (one_le_blockSize w h)
  have hbyte : ∀ l ∈ blockLumas lum w size ox oy, l ≤ 255 := by
    intro l hl
    obtain ⟨x, y, -, -, -, -, rfl⟩ := mem_blockLumas_iff.mp hl
    exact hlum _
  obtain ⟨hmn, hleast⟩ := lumaRange_mn_isLeast hne hbyte
  obtain ⟨hmx, hgreatest⟩ := lumaRange_mx_isGreatest hne
  refine ⟨blockOrigin_add_le bx hsw, blockOrigin_add_le by' hsh, fun x y hx hx' hy hy' => ?_,
    mem_blockLumas_iff.mp hmn, mem_blockLumas_iff.mp hmx⟩
  have hmem : lum (y * w + x) ∈ blockLumas lum w size ox oy := mem_blockLumas_iff.mpr ⟨x, y, hx, hx', hy, hy', rfl⟩
  exact ⟨hleast hmem, hgreatest hmem⟩

/-- The pixels of an image are numbered below `W·H` (R201). -/
theorem pixelIndex_lt {x y w h : Nat} (hx : x < w) (hy : y < h) : y * w + x < w * h :=
  calc y * w + x < y * w + w := Nat.add_lt_add_left hx _
    _ = (y + 1) * w := (Nat.succ_mul y w).symm
    _ ≤ h * w := Nat.mul_le_mul_right w hy
    _ = w * h := Nat.mul_comm h w

/-- What holds of the luma of every pixel of a legal image holds of the ends of every block's range (R194, R195). -/
theorem blockRange_ends_of_pixels {lum : Nat → Nat} {w h : Nat} {Q : Nat → Prop} (hlum : ∀ p, lum p ≤ 255) (hw : 16 ≤ w)
    (hh : 16 ≤ h) (hQ : ∀ p < w * h, Q (lum p)) (bx by' : Nat) :
    Q (blockRange lum w h (blockSize w h) bx by').mn ∧ Q (blockRange lum w h (blockSize w h) bx by').mx := by
  obtain ⟨hox, hoy, -, ⟨x, y, -, hx, -, hy, hmn⟩, ⟨x', y', -, hx', -, hy', hmx⟩⟩ :=
    blockRangeIsMinMax lum w h bx by' hlum hw hh
  rw [← hmn, ← hmx]
  exact ⟨hQ _ (pixelIndex_lt (by omega) (by omega)), hQ _ (pixelIndex_lt (by omega) (by omega))⟩

end Sys2Proof.Machine
end

section
/-!
PROOFS. The thresholds of the binarizer: the row-major computation against the rules, bounds, and the mean over the window
(spec/44_binarizer.md R196 to R199).
-/

namespace Sys2Proof.Machine

/-! ### The rules for the raw thresholds, block by block -/

/-- The rule of a block without neighbours (R196, R197 a). -/
theorem rawThreshold_none (r : BlockRange) :
    rawThreshold r none = if 12 ≤ r.mx - r.mn then highThreshold r else lowThreshold r := rfl

/-- The rule of a block with neighbours (R196, R197 b). -/
theorem rawThreshold_some (r : BlockRange) (n : Neighbours) :
    rawThreshold r (some n) =
      if 12 ≤ r.mx - r.mn then highThreshold r
      else if r.mn < (n.left + n.top + n.topLeft) / 3 then (n.left + n.top + n.topLeft) / 3
      else lowThreshold r := rfl

/-- Everything the raw threshold of a block can be (R196, R197). -/
theorem rawThreshold_cases (r : BlockRange) (nb : Option Neighbours) :
    (12 ≤ r.mx - r.mn ∧ rawThreshold r nb = highThreshold r) ∨
    (r.mx - r.mn < 12 ∧ rawThreshold r nb = lowThreshold r) ∨
    (∃ n, nb = some n ∧ r.mx - r.mn < 12 ∧ r.mn < (n.left + n.top + n.topLeft) / 3 ∧
      rawThreshold r nb = (n.left + n.top + n.topLeft) / 3) := by
  cases nb with
  | none =>
    rw [rawThreshold_none]
    split
    · exact .inl ⟨‹_›, rfl⟩
    · exact .inr (.inl ⟨by omega, rfl⟩)
  | some n =>
    rw [rawThreshold_some]
    split
    · exact .inl ⟨‹_›, rfl⟩
    · split
      · exact .inr (.inr ⟨n, rfl, by omega, ‹_›, rfl⟩)
      · exact .inr (.inl ⟨by omega, rfl⟩)

/-- The thresholds that R197 (b) averages at a block; a block on the top row or the left column has none. -/
def neighboursAt (raw : Nat → Nat → Nat) : Nat → Nat → Option Neighbours
  | bx + 1, by' + 1 => some ⟨raw bx (by' + 1), raw (bx + 1) by', raw bx by'⟩
  | _, _ => none

@[simp] theorem neighboursAt_top (raw : Nat → Nat → Nat) (bx : Nat) : neighboursAt raw bx 0 = none := by
  cases bx <;> rfl

@[simp] theorem neighboursAt_left (raw : Nat → Nat → Nat) (by' : Nat) : neighboursAt raw 0 by' = none := rfl

@[simp] theorem neighboursAt_inner (raw : Nat → Nat → Nat) (bx by' : Nat) :
    neighboursAt raw (bx + 1) (by' + 1) = some ⟨raw bx (by' + 1), raw (bx + 1) by', raw bx by'⟩ := rfl

section Rules
variable {lum : Nat → Nat} {w h : Nat} {raw : Nat → Nat → Nat}

/-- The rules R196 and R197 are one equation per block. -/
theorem obeysRawRules_iff : ObeysRawRules lum w h raw ↔
    ∀ bx by', bx < blocksAlong w (blockSize w h) → by' < blocksAlong h (blockSize w h) →
      raw bx by' = rawThreshold (blockRange lum w h (blockSize w h) bx by') (neighboursAt raw bx by') := by
  refine forall₄_congr fun bx by' _ _ => ?_
  match bx, by' with
  | 0, _ | _ + 1, 0 | _ + 1, _ + 1 => simp [rawThreshold_none, rawThreshold_some, highThreshold, lowThreshold]

/-- Induction over the blocks of a grid: a block refers to its left, top and top-left neighbours only (R198). -/
theorem grid_induction {P : Nat → Nat → Prop} (top : ∀ bx, P bx 0) (left : ∀ by', P 0 by')
    (inner : ∀ bx by', P bx (by' + 1) → P (bx + 1) by' → P bx by' → P (bx + 1) (by' + 1)) (bx by' : Nat) : P bx by' := by
  induction by' generalizing bx with
  | zero => exact top bx
  | succ by' above =>
    induction bx with
    | zero => exact left _
    | succ bx before => exact inner bx by' before (above _) (above _)

/-- What the high and the low branch give at the ranges that occur, and what neighbours hand on, holds of every raw threshold. -/
theorem ObeysRawRules.forall_raw {R : BlockRange → Prop} {P : Nat → Prop} (hraw : ObeysRawRules lum w h raw)
    (hR : ∀ bx by', R (blockRange lum w h (blockSize w h) bx by'))
    (high : ∀ r, R r → 12 ≤ r.mx - r.mn → P (highThreshold r)) (low : ∀ r, R r → P (lowThreshold r))
    (inherited : ∀ a b c, P a → P b → P c → P ((a + b + c) / 3)) (bx by' : Nat) :
    bx < blocksAlong w (blockSize w h) → by' < blocksAlong h (blockSize w h) → P (raw bx by') := by
  have edge : ∀ r, R r → P (rawThreshold r none) := fun r hr => by
    rcases rawThreshold_cases r none with ⟨hrange, h⟩ | ⟨_, h⟩ | ⟨n, hn, _⟩
    · exact h ▸ high r hr hrange
    · exact h ▸ low r hr
    · contradiction
  rw [obeysRawRules_iff] at hraw
  induction bx, by' using grid_induction with
  | top bx => exact fun hx hy => by rw [hraw _ _ hx hy, neighboursAt_top]; exact edge _ (hR _ _)
  | left by' => exact fun hx hy => by rw [hraw _ _ hx hy, neighboursAt_left]; exact edge _ (hR _ _)
  | inner bx by' left top topLeft =>
    intro hx hy
    rw [hraw _ _ hx hy, neighboursAt_inner]
    rcases rawThreshold_cases (blockRange lum w h (blockSize w h) (bx + 1) (by' + 1))
      (some ⟨raw bx (by' + 1), raw (bx + 1) by', raw bx by'⟩) with ⟨hrange, h⟩ | ⟨_, h⟩ | ⟨n, hn, _, _, h⟩
    · exact h ▸ high _ (hR _ _) hrange
    · exact h ▸ low _ (hR _ _)
    · obtain rfl := Option.some.inj hn
      exact h ▸ inherited _ _ _ (left (by omega) hy) (top hx (by omega)) (topLeft (by omega) (by omega))

/-- Two functions that obey the rules agree on the grid. -/
theorem ObeysRawRules.eq_on_grid {raw' : Nat → Nat → Nat} (hraw : ObeysRawRules lum w h raw)
    (hraw' : ObeysRawRules lum w h raw') (bx by' : Nat) :
    bx < blocksAlong w (blockSize w h) → by' < blocksAlong h (blockSize w h) → raw bx by' = raw' bx by' := by
  rw [obeysRawRules_iff] at hraw hraw'
  induction bx, by' using grid_induction with
  | top bx => exact fun hx hy => by rw [hraw _ _ hx hy, hraw' _ _ hx hy, neighboursAt_top, neighboursAt_top]
  | left by' => exact fun hx hy => by rw [hraw _ _ hx hy, hraw' _ _ hx hy, neighboursAt_left, neighboursAt_left]
  | inner bx by' left top topLeft =>
    intro hx hy
    rw [hraw _ _ hx hy, hraw' _ _ hx hy, neighboursAt_inner, neighboursAt_inner, left (by omega) hy, top hx (by omega),
      topLeft (by omega) (by omega)]

end Rules

/-! ### The row-major computation -/

@[simp] theorem length_rawRowFrom (before : Option (Nat × Nat)) (rs : List BlockRange) (above : List Nat) :
    (rawRowFrom before rs above).length = rs.length := by
  induction rs generalizing before above with
  | nil => rfl
  | cons r rs ih => simp [rawRowFrom, ih]

/-- The top row has no neighbours. -/
theorem rawRowFrom_top (before : Option (Nat × Nat)) (rs : List BlockRange) :
    rawRowFrom before rs [] = rs.map fun r => rawThreshold r none := by
  induction rs generalizing before with
  | nil => rfl
  | cons r rs ih => simp [rawRowFrom, ih]

/-- The first block of a row has no neighbours. -/
theorem getD_rawRowFrom_zero {rs : List BlockRange} {r : BlockRange} (above : List Nat) (hr : rs[0]? = some r) :
    (rawRowFrom none rs above).getD 0 0 = rawThreshold r none := by
  cases rs with
  | nil => simp at hr
  | cons r' rs =>
    obtain rfl : r' = r := by simpa using hr
    simp [rawRowFrom]

/-- A later block of a lower row has three. -/
theorem getD_rawRowFrom_succ {before : Option (Nat × Nat)} {rs : List BlockRange} {r : BlockRange} {above : List Nat} {bx : Nat}
    (hr : rs[bx + 1]? = some r) (ha : bx + 1 < above.length) :
    (rawRowFrom before rs above).getD (bx + 1) 0 =
      rawThreshold r (some ⟨(rawRowFrom before rs above).getD bx 0, above.getD (bx + 1) 0, above.getD bx 0⟩) := by
  induction rs generalizing before above bx with
  | nil => simp at hr
  | cons r' rs ih =>
    match above, bx with
    | a :: above, bx + 1 =>
      have hlater := ih (before := some ((rawRowFrom before (r' :: rs) (a :: above)).getD 0 0, a)) (above := above)
        (by simpa using hr) (by simpa using ha)
      simpa [rawRowFrom] using hlater
    | a :: a' :: above, 0 =>
      cases rs with
      | nil => simp at hr
      | cons r2 rs =>
        obtain rfl : r2 = r := by simpa using hr
        simp [rawRowFrom]

@[simp] theorem length_rawRows (rows : List (List BlockRange)) (above : List Nat) :
    (rawRows rows above).length = rows.length := by
  induction rows generalizing above with
  | nil => rfl
  | cons rs rows ih => simp [rawRows, ih]

theorem getD_rawRows_zero {rows : List (List BlockRange)} {rs : List BlockRange} (above : List Nat) (hrs : rows[0]? = some rs) :
    (rawRows rows above).getD 0 [] = rawRowFrom none rs above := by
  cases rows with
  | nil => simp at hrs
  | cons rs' rows =>
    obtain rfl : rs' = rs := by simpa using hrs
    simp [rawRows]

/-- Each row is computed from the row above it. -/
theorem getD_rawRows_succ {rows : List (List BlockRange)} {rs : List BlockRange} {above : List Nat} {by' : Nat}
    (hrs : rows[by' + 1]? = some rs) :
    (rawRows rows above).getD (by' + 1) [] = rawRowFrom none rs ((rawRows rows above).getD by' []) := by
  induction rows generalizing above by' with
  | nil => simp at hrs
  | cons rs' rows ih =>
    have hrs' : rows[by']? = some rs := by simpa using hrs
    cases by' with
    | zero => simpa [rawRows] using getD_rawRows_zero (rawRowFrom none rs' above) hrs'
    | succ by' => simpa [rawRows] using ih (above := rawRowFrom none rs' above) hrs'

section RawGrid
variable {lum : Nat → Nat} {w h bx by' : Nat}

/-- The ranges of a row of blocks. -/
def rangeRow (lum : Nat → Nat) (w h by' : Nat) : List BlockRange :=
  (List.range (blocksAlong w (blockSize w h))).map fun bx => blockRange lum w h (blockSize w h) bx by'

theorem getElem?_rangeGrid (hy : by' < blocksAlong h (blockSize w h)) :
    (rangeGrid lum w h)[by']? = some (rangeRow lum w h by') := by
  simp [rangeGrid, rangeRow, hy]

theorem getElem?_rangeRow (hx : bx < blocksAlong w (blockSize w h)) :
    (rangeRow lum w h by')[bx]? = some (blockRange lum w h (blockSize w h) bx by') := by
  simp [rangeRow, hx]

/-- The raw thresholds of a row of blocks. -/
def rawRow (lum : Nat → Nat) (w h by' : Nat) : List Nat := (rawGrid lum w h).getD by' []

theorem rawRow_zero (hy : 0 < blocksAlong h (blockSize w h)) :
    rawRow lum w h 0 = rawRowFrom none (rangeRow lum w h 0) [] :=
  getD_rawRows_zero [] (getElem?_rangeGrid hy)

theorem rawRow_succ (hy : by' + 1 < blocksAlong h (blockSize w h)) :
    rawRow lum w h (by' + 1) = rawRowFrom none (rangeRow lum w h (by' + 1)) (rawRow lum w h by') :=
  getD_rawRows_succ (getElem?_rangeGrid hy)

theorem length_rawRow (hy : by' < blocksAlong h (blockSize w h)) :
    (rawRow lum w h by').length = blocksAlong w (blockSize w h) := by
  cases by' with
  | zero => simp [rawRow_zero hy, rangeRow]
  | succ by' => simp [rawRow_succ hy, rangeRow]

/-- The computed thresholds obey the rules at every block. -/
theorem obeysRawRules_rawGrid : ObeysRawRules lum w h (gridAt (rawGrid lum w h)) := by
  refine obeysRawRules_iff.mpr fun bx by' hx hy => ?_
  have hgrid : ∀ i j, gridAt (rawGrid lum w h) i j = (rawRow lum w h j).getD i 0 := fun _ _ => rfl
  match bx, by' with
  | bx, 0 => simp [hgrid, rawRow_zero hy, rawRowFrom_top, getElem?_rangeRow hx]
  | 0, by' + 1 => rw [hgrid, rawRow_succ hy, getD_rawRowFrom_zero _ (getElem?_rangeRow hx), neighboursAt_left]
  | bx + 1, by' + 1 =>
    have hlen : bx + 1 < (rawRow lum w h by').length := by rwa [length_rawRow (by omega)]
    rw [neighboursAt_inner, hgrid, hgrid, hgrid, hgrid, rawRow_succ hy, getD_rawRowFrom_succ (getElem?_rangeRow hx) hlen]

/-- Outside the grid there are no thresholds. -/
theorem gridAt_rawGrid_outside (hout : bx < blocksAlong w (blockSize w h) → ¬ by' < blocksAlong h (blockSize w h)) :
    gridAt (rawGrid lum w h) bx by' = 0 := by
  by_cases hy : by' < blocksAlong h (blockSize w h)
  · have hlen : (rawRow lum w h by').length ≤ bx := by
      rw [length_rawRow hy]
      exact not_lt.mp fun hx => hout hx hy
    exact List.getD_eq_default _ _ hlen
  · have hlen : (rawGrid lum w h).length ≤ by' := by simpa [rawGrid, rangeGrid] using hy
    rw [gridAt, List.getD_eq_default _ _ hlen]
    rfl

end RawGrid

/-- Settles O34: the computation obeys the rules, and obeying them determines the thresholds block by block. -/
theorem rawThresholdsUnique : Obligations.RawThresholdsUnique := fun _ _ _ =>
  ⟨obeysRawRules_rawGrid, fun _ hraw => hraw.eq_on_grid obeysRawRules_rawGrid⟩

/-! ### The mean over the window (R199) -/

/-- An index of the window, clamped, in the arithmetic of the naturals. -/
theorem clampIndex_add_sub_two (b d hi : Nat) : clampIndex ((b : Int) + ((d : Int) - 2)) hi = min (b + d - 2) hi := by
  unfold clampIndex
  omega

theorem clampIndex_le (v : Int) (hi : Nat) : clampIndex v hi ≤ hi := by
  unfold clampIndex
  omega

theorem windowOffsets_eq : windowOffsets = (List.range 5).map fun d : Nat => (d : Int) - 2 := by decide

section Smoothing
variable {raw : Nat → Nat → Nat} {g : List (List Nat)} {nbx nby : Nat}

/-- The window's mean is that of any function that agrees with the thresholds on the grid. -/
theorem smoothed_eq_smoothOf (hx : 1 ≤ nbx) (hy : 1 ≤ nby) (heq : ∀ bx < nbx, ∀ by' < nby, gridAt g bx by' = raw bx by')
    (bx by' : Nat) : smoothed g nbx nby bx by' = smoothOf raw nbx nby bx by' := by
  have hcell : ∀ dx dy : Nat, gridAt g (clampIndex ((bx : Int) + ((dx : Int) - 2)) (nbx - 1))
      (clampIndex ((by' : Int) + ((dy : Int) - 2)) (nby - 1)) = raw (min (bx + dx - 2) (nbx - 1)) (min (by' + dy - 2) (nby - 1)) :=
    fun dx dy => by
      rw [clampIndex_add_sub_two, clampIndex_add_sub_two]
      exact heq _ (by omega) _ (by omega)
  rw [smoothed, smoothOf, windowOffsets_eq, List.flatMap, List.sum_flatten, List.map_map, List.map_map]
  simp only [List.map_map, Function.comp_def, hcell]

/-- The mean of 25 values within bounds is within them. -/
theorem smoothed_bounds {lo hi : Nat} (h : ∀ bx ≤ nbx - 1, ∀ by' ≤ nby - 1, lo ≤ gridAt g bx by' ∧ gridAt g bx by' ≤ hi)
    (bx by' : Nat) : lo ≤ smoothed g nbx nby bx by' ∧ smoothed g nbx nby bx by' ≤ hi := by
  unfold smoothed
  generalize hvs : (windowOffsets.flatMap fun dy => windowOffsets.map fun dx =>
    gridAt g (clampIndex (bx + dx) (nbx - 1)) (clampIndex (by' + dy) (nby - 1))) = vs
  have hmem : ∀ v ∈ vs, lo ≤ v ∧ v ≤ hi := by
    subst hvs
    intro v hv
    obtain ⟨dy, -, hv⟩ := List.mem_flatMap.mp hv
    obtain ⟨dx, -, rfl⟩ := List.mem_map.mp hv
    exact h _ (clampIndex_le _ _) _ (clampIndex_le _ _)
  have hlen : vs.length = 25 := by
    subst hvs
    simp [windowOffsets]
  have hlo := List.card_nsmul_le_sum vs lo fun v hv => (hmem v hv).1
  have hhi := List.sum_le_card_nsmul vs hi fun v hv => (hmem v hv).2
  rw [hlen, smul_eq_mul] at hlo hhi
  omega

end Smoothing

section SmoothGrid
variable {lum : Nat → Nat} {w h : Nat}

/-- `sm` of a block of an image. -/
def smoothAt (lum : Nat → Nat) (w h bx by' : Nat) : Nat :=
  smoothed (rawGrid lum w h) (blocksAlong w (blockSize w h)) (blocksAlong h (blockSize w h)) bx by'

theorem gridAt_smoothGrid (bx by' : Nat) :
    gridAt (smoothGrid lum w h) bx by' =
      if bx < blocksAlong w (blockSize w h) ∧ by' < blocksAlong h (blockSize w h) then smoothAt lum w h bx by' else 0 := by
  unfold gridAt smoothGrid smoothAt
  by_cases hy : by' < blocksAlong h (blockSize w h)
  · by_cases hx : bx < blocksAlong w (blockSize w h) <;> simp [List.getD_eq_getElem?_getD, hx, hy]
  · simp [List.getD_eq_getElem?_getD, hy]

/-- Bounds of the raw thresholds of a non-empty grid are bounds of the smoothed ones. -/
theorem smoothAt_bounds {lo hi : Nat} (hx : 1 ≤ blocksAlong w (blockSize w h)) (hy : 1 ≤ blocksAlong h (blockSize w h))
    (hraw : ∀ bx by', bx < blocksAlong w (blockSize w h) → by' < blocksAlong h (blockSize w h) →
      lo ≤ gridAt (rawGrid lum w h) bx by' ∧ gridAt (rawGrid lum w h) bx by' ≤ hi) (bx by' : Nat) :
    lo ≤ smoothAt lum w h bx by' ∧ smoothAt lum w h bx by' ≤ hi :=
  smoothed_bounds (fun _ hbx _ hby => hraw _ _ (by omega) (by omega)) bx by'

end SmoothGrid

/-! ### Bounds (O36) -/

theorem lowThreshold_le_of_mn_le {r : BlockRange} (h : r.mn ≤ 255) : lowThreshold r ≤ 254 := by
  unfold lowThreshold
  omega

theorem blockRange_mn_le (lum : Nat → Nat) (w h size bx by' : Nat) : (blockRange lum w h size bx by').mn ≤ 255 :=
  lumaRange_mn_le _

theorem highThreshold_eq (mn mx : Nat) : highThreshold ⟨mn, mx⟩ = min 255 ((mn + mx) / 2 * 11 / 10) := by
  simp only [highThreshold]
  omega

/-- Raw thresholds are bytes whatever the image (R196, R197). -/
theorem gridAt_rawGrid_le (lum : Nat → Nat) (w h bx by' : Nat) : gridAt (rawGrid lum w h) bx by' ≤ 255 := by
  by_cases hin : bx < blocksAlong w (blockSize w h) ∧ by' < blocksAlong h (blockSize w h)
  · refine obeysRawRules_rawGrid.forall_raw (P := (· ≤ 255)) (blockRange_mn_le lum w h _) (fun r _ _ => min_le_left _ _)
      (fun r hr => (lowThreshold_le_of_mn_le hr).trans (by decide)) (fun a b c ha hb hc => ?_) bx by' hin.1 hin.2
    exact Nat.div_le_of_le_mul (by omega)
  · rw [gridAt_rawGrid_outside fun hx hy => hin ⟨hx, hy⟩]
    exact Nat.zero_le 255

/-- Settles O36: the bound of the raw thresholds goes through the branches of the rules, that of the smoothed ones through the
mean; the two biases are compared in linear arithmetic. -/
theorem thresholdsAreBytes : Obligations.ThresholdsAreBytes := by
  refine ⟨fun lum w h bx by' _ => ⟨gridAt_rawGrid_le lum w h bx by', ?_⟩, fun mn mx hle hmx => ?_⟩
  · rw [gridAt_smoothGrid]
    split
    · exact (smoothed_bounds (fun i _ j _ => ⟨Nat.zero_le _, gridAt_rawGrid_le lum w h i j⟩) bx by').2
    · exact Nat.zero_le 255
  · dsimp only
    rw [highThreshold_eq]
    omega

end Sys2Proof.Machine
end

section
/-!
PROOFS. The BINARIZE command: what it refuses, what it writes and leaves alone, and the images whose result is known
(spec/44_binarizer.md R190, R191, R201 to R206).
-/

namespace Sys2Proof.Machine

/-! ### Which images are taken (O32) -/

theorem exec_binarize_degenerate {s : State} (h : s.width < 16 ∨ s.height < 16) :
    exec .binarize s = .next (s.completedWith .binarizationFailed) := by
  rcases execBinarize_cases s with ⟨_, hs⟩ | ⟨hsides, _⟩ | ⟨hsides, _⟩
  · exact hs
  all_goals
    rw [State.imageDegenerate_eq_false_iff] at hsides
    omega

theorem exec_binarize_tooLarge {s : State} (hw : 16 ≤ s.width) (hh : 16 ≤ s.height) (h : 4194304 < s.width * s.height) :
    exec .binarize s = .next (s.completedWith .badConfig) := by
  rcases execBinarize_cases s with ⟨hsides, _⟩ | ⟨_, _, hs⟩ | ⟨_, hfits, _⟩
  · simp [s.imageDegenerate_eq_false_iff.mpr ⟨hw, hh⟩] at hsides
  · exact hs
  · rw [State.imageTooLarge_eq_false_iff] at hfits
    omega

/-- The state a successful BINARIZE leaves behind (R201 to R203). -/
def State.binarized (s : State) : State := s.storeBinary.storeGeometry.complete

theorem exec_binarize_legal {s : State} (hw : 16 ≤ s.width) (hh : 16 ≤ s.height) (hfit : s.width * s.height ≤ 4194304) :
    exec .binarize s = .next s.binarized := by
  rcases execBinarize_cases s with ⟨hsides, _⟩ | ⟨_, hlarge, _⟩ | ⟨_, _, hs⟩
  · simp [s.imageDegenerate_eq_false_iff.mpr ⟨hw, hh⟩] at hsides
  · simp [s.imageTooLarge_eq_false_iff.mpr hfit] at hlarge
  · exact hs

/-- Settles O32: the two tests of R191 in their order, and the size of a block against the sides. -/
theorem binarizeRefusals : Obligations.BinarizeRefusals :=
  ⟨rfl, rfl, fun _ => ⟨exec_binarize_degenerate, exec_binarize_tooLarge, blockSize_le_sides⟩⟩

/-! ### What BINARIZE writes -/

/-- Storing the image writes BIN and nothing else (R202). -/
theorem State.storeBinary_frame (s : State) : s.storeBinary = { s with bin := s.storeBinary.bin } :=
  s.setCells_eq_setMem .bin 0 _

/-- BINARIZE writes BIN, its two result registers and STATUS (R203). -/
theorem State.binarized_frame (s : State) :
    s.binarized = { s with
      bin := s.binarized.bin, blkSz := BitVec.ofNat 13 (blockSize s.width s.height)
      gridX := BitVec.ofNat 16 (blocksAlong s.width (blockSize s.width s.height))
      gridY := BitVec.ofNat 16 (blocksAlong s.height (blockSize s.width s.height))
      err := .success, done := true, busy := false } :=
  congrArg (fun u : State => u.storeGeometry.complete) s.storeBinary_frame

@[simp] theorem State.binarized_err (s : State) : s.binarized.err = .success := rfl

@[simp] theorem State.binarized_blkSz (s : State) : s.binarized.blkSz = BitVec.ofNat 13 (blockSize s.width s.height) :=
  congrArg State.blkSz s.binarized_frame

@[simp] theorem State.binarized_gridX (s : State) :
    s.binarized.gridX = BitVec.ofNat 16 (blocksAlong s.width (blockSize s.width s.height)) :=
  congrArg State.gridX s.binarized_frame

@[simp] theorem State.binarized_gridY (s : State) :
    s.binarized.gridY = BitVec.ofNat 16 (blocksAlong s.height (blockSize s.width s.height)) :=
  congrArg State.gridY s.binarized_frame

/-- BIN bit by bit: the pixels of the image, and the other bits as they were (R201, R202). -/
theorem State.binBit_binarized (s : State) (p : Nat) :
    s.binarized.binBit p =
      if p < s.pixels then pixelBlack s.lumaAt s.width s.height (smoothGrid s.lumaAt s.width s.height) p
      else s.binBit p := by
  have hp : 8 * (p / 8) + p % 8 = p := Nat.div_add_mod p 8
  have hcell : s.binarized.cell .bin (p / 8) = s.storeBinary.cell .bin (p / 8) := rfl
  rw [State.binBit, hcell, State.storeBinary, State.cell_setCells]
  split
  case isTrue hj =>
    have hj' : p / 8 < (s.pixels + 7) / 8 := by simpa using hj
    simp [List.getD_eq_getElem?_getD, hj', getLsbD_binByte _ _ _ _ _ (Nat.mod_lt p (by decide : 0 < 8)), hp, State.binBit]
  case isFalse hj =>
    have hj' : (s.pixels + 7) / 8 ≤ p / 8 := by simpa using hj
    rw [if_neg (by omega)]
    rfl

/-- A BIN byte is its eight bits. -/
theorem State.cell_bin_eq_of_binBit {s t : State} (h : ∀ p, s.binBit p = t.binBit p) (j : Nat) :
    s.cell .bin j = t.cell .bin j := by
  apply BitVec.eq_of_getLsbD_eq
  intro i hi
  have hbit := h (8 * j + i)
  have hq : (8 * j + i) / 8 = j := by omega
  have hr : (8 * j + i) % 8 = i := by omega
  rwa [State.binBit, State.binBit, hq, hr] at hbit

/-- The smoothed threshold of the block of pixel `p` (R200, R201). -/
def pixelThreshold (lum : Nat → Nat) (w h p : Nat) : Nat :=
  smoothAt lum w h (blockOf (p % w) w (blockSize w h)) (blockOf (p / w) h (blockSize w h))

/-- A pixel of the image lies in a block of the grid, so the grid has its threshold. -/
theorem pixelBlack_smoothGrid (lum : Nat → Nat) {w h p : Nat} (hp : p < w * h) :
    pixelBlack lum w h (smoothGrid lum w h) p = decide (lum p ≤ pixelThreshold lum w h p) := by
  have hs := one_le_blockSize w h
  have hw : 0 < w := Nat.pos_of_mul_pos_right (by omega : 0 < w * h)
  have hx := blockOf_lt hs (Nat.mod_lt p hw)
  have hy := blockOf_lt hs (Nat.div_lt_of_lt_mul hp)
  rw [pixelBlack, gridAt_smoothGrid, if_pos ⟨hx, hy⟩, pixelThreshold]

theorem State.binBit_binarized_pixel (s : State) {p : Nat} (hp : p < s.width * s.height) :
    s.binarized.binBit p = decide (s.lumaAt p ≤ pixelThreshold s.lumaAt s.width s.height p) := by
  rw [State.binBit_binarized, State.pixels, if_pos hp, pixelBlack_smoothGrid _ hp]

theorem State.lumaAt_le (s : State) (p : Nat) : s.lumaAt p ≤ 255 := Nat.le_of_lt_succ (s.cell .luma p).isLt

theorem blocksAlong_blockSize_pos {d w h : Nat} (hd : 16 ≤ d) : 1 ≤ blocksAlong d (blockSize w h) :=
  one_le_blocksAlong (one_le_blockSize w h) ((by decide : 1 ≤ 16).trans hd)

/-- The smoothed thresholds, from any function that obeys the rules (R199). -/
theorem smoothAt_eq_smoothOf {lum : Nat → Nat} {w h : Nat} {raw : Nat → Nat → Nat} (hraw : ObeysRawRules lum w h raw)
    (hw : 16 ≤ w) (hh : 16 ≤ h) (bx by' : Nat) :
    smoothAt lum w h bx by' = smoothOf raw (blocksAlong w (blockSize w h)) (blocksAlong h (blockSize w h)) bx by' :=
  smoothed_eq_smoothOf (blocksAlong_blockSize_pos hw) (blocksAlong_blockSize_pos hh)
    (fun i hi j hj => obeysRawRules_rawGrid.eq_on_grid hraw i j hi hj) bx by'

/-- The result registers read as the geometry (R203): each number fits its field. -/
theorem State.readReg_binarized {s : State} (hfit : s.width * s.height ≤ 4194304) :
    s.binarized.readReg 0x28 = BitVec.ofNat 32 (blockSize s.width s.height) ∧
    s.binarized.readReg 0x2C = BitVec.ofNat 32 (blocksAlong s.width (blockSize s.width s.height) +
      65536 * blocksAlong s.height (blockSize s.width s.height)) := by
  have hS := blockSize_le hfit
  have hx := blocksAlong_side_le (w := s.width) (h := s.height) (Nat.le_of_lt_succ s.imgW.isLt : s.width ≤ 8191)
  have hy := blocksAlong_side_le (w := s.width) (h := s.height) (Nat.le_of_lt_succ s.imgH.isLt : s.height ≤ 8191)
  constructor
  · refine (zeros_append (n := 19) _).trans (BitVec.eq_of_toNat_eq ?_)
    rw [State.binarized_blkSz, BitVec.toNat_setWidth, BitVec.toNat_ofNat, BitVec.toNat_ofNat]
    omega
  · refine (State.gridWord_eq _).trans ?_
    rw [State.binarized_gridX, State.binarized_gridY, BitVec.toNat_ofNat, BitVec.toNat_ofNat, Nat.mod_eq_of_lt (by omega),
      Nat.mod_eq_of_lt (by omega)]

/-- Settles O33: a pixel is compared with its block's smoothed threshold, which any function obeying the rules gives. -/
theorem binarizeComputesThresholdedImage : Obligations.BinarizeComputesThresholdedImage := by
  intro s w h size nbx nby hw hh hfit
  obtain ⟨hblkSz, hgrid⟩ := State.readReg_binarized (s := s) hfit
  refine ⟨_, exec_binarize_legal hw hh hfit, fun raw hraw x y hx hy => ?pixel, fun p hp => ?kept, hblkSz, hgrid,
    s.binarized_frame⟩
  case pixel =>
    have hmod : (y * w + x) % w = x := by rw [Nat.mul_add_mod', Nat.mod_eq_of_lt hx]
    have hdiv : (y * w + x) / w = y := by
      rw [Nat.mul_comm, Nat.mul_add_div (by omega), Nat.div_eq_of_lt hx, Nat.add_zero]
    have hthreshold : pixelThreshold s.lumaAt w h (y * w + x) =
        smoothOf raw nbx nby (blockOf x w size) (blockOf y h size) := by
      rw [pixelThreshold, hmod, hdiv, smoothAt_eq_smoothOf hraw hw hh]
      rfl
    exact (s.binBit_binarized_pixel (pixelIndex_lt hx hy)).trans (congrArg (fun v => decide (_ ≤ v)) hthreshold)
  case kept => exact (s.binBit_binarized p).trans (if_neg (not_lt.mpr hp))

/-! ### Images whose result is known (O38, O39) -/

section KnownImage
variable {lum : Nat → Nat} {w h lo hi : Nat} {Q : Nat → Prop}

/-- Bounds of what the rules give at the ranges that the pixels allow are bounds of every pixel's threshold. -/
theorem pixelThreshold_bounds (hlum : ∀ p, lum p ≤ 255) (hw : 16 ≤ w) (hh : 16 ≤ h) (hQ : ∀ p < w * h, Q (lum p))
    (high : ∀ mn mx, Q mn → Q mx → 12 ≤ mx - mn → lo ≤ highThreshold ⟨mn, mx⟩ ∧ highThreshold ⟨mn, mx⟩ ≤ hi)
    (low : ∀ mn, Q mn → lo ≤ max mn 1 - 1 ∧ max mn 1 - 1 ≤ hi) (p : Nat) :
    lo ≤ pixelThreshold lum w h p ∧ pixelThreshold lum w h p ≤ hi :=
  smoothAt_bounds (blocksAlong_blockSize_pos hw) (blocksAlong_blockSize_pos hh)
    (obeysRawRules_rawGrid.forall_raw (R := fun r => Q r.mn ∧ Q r.mx) (P := fun v => lo ≤ v ∧ v ≤ hi)
      (blockRange_ends_of_pixels hlum hw hh hQ) (fun r hr hrange => high r.mn r.mx hr.1 hr.2 hrange)
      (fun r hr => low r.mn hr.1) fun a b c ha hb hc => by omega) _ _

end KnownImage

/-- Settles O38: a block's range ends in 0 or 255, so no raw threshold and no mean of them is above 254 (R206). -/
theorem blackAndWhiteImageBinarizesExactly : Obligations.BlackAndWhiteImageBinarizesExactly := by
  intro s hw hh hfit hbw
  refine ⟨_, exec_binarize_legal hw hh hfit, rfl, fun p hp => ?_⟩
  have hthreshold : 0 ≤ pixelThreshold s.lumaAt s.width s.height p ∧ pixelThreshold s.lumaAt s.width s.height p ≤ 254 := by
    refine pixelThreshold_bounds (Q := fun l => l = 0 ∨ l = 255) s.lumaAt_le hw hh hbw (fun mn mx hmn hmx hrange => ?_)
      (fun mn hmn => by omega) p
    rw [highThreshold_eq]
    omega
  refine (s.binBit_binarized_pixel hp).trans (decide_eq_decide.mpr ?_)
  rcases hbw p hp with h | h <;> omega

/-- Settles O39: every block has the range of one value `v`, so every threshold is `max(v, 1) - 1` (R205). -/
theorem uniformImage : Obligations.UniformImage := by
  intro s v hw hh hfit huniform
  refine ⟨_, exec_binarize_legal hw hh hfit, rfl, fun p hp => ?_⟩
  have hthreshold : max v 1 - 1 ≤ pixelThreshold s.lumaAt s.width s.height p ∧
      pixelThreshold s.lumaAt s.width s.height p ≤ max v 1 - 1 :=
    pixelThreshold_bounds (Q := (· = v)) s.lumaAt_le hw hh huniform (fun mn mx hmn hmx hrange => by omega)
      (fun mn hmn => by omega) p
  have hp' := huniform p hp
  refine (s.binBit_binarized_pixel hp).trans (decide_eq_decide.mpr ?_)
  omega

/-! ### BINARIZE again (O40) -/

@[simp] theorem State.binarized_width (s : State) : s.binarized.width = s.width := by
  simp [State.width, State.binarized]

@[simp] theorem State.binarized_height (s : State) : s.binarized.height = s.height := by
  simp [State.height, State.binarized]

/-- BINARIZE does not write LUMA (R204). -/
@[simp] theorem State.binarized_lumaAt (s : State) : s.binarized.lumaAt = s.lumaAt := by
  have hluma : s.binarized.luma = s.luma := by simp [State.binarized]
  exact funext fun p => congrArg BitVec.toNat (State.cell_luma_eq hluma p)

theorem State.cell_binarized_of_ne_bin (s : State) {b : Bank} (hb : b ≠ .bin) (j : Nat) :
    s.binarized.cell b j = s.cell b j := by
  have hmem : s.binarized.mem b = s.mem b := by
    simp [State.binarized, State.storeBinary, State.mem_setCells_other _ _ _ hb]
  rw [State.cell, hmem, State.cell]

/-- Storing the image again stores the same bytes: LUMA and the sides are as they were (R204). -/
theorem State.cell_binarized_binarized (s : State) (b : Bank) (j : Nat) :
    s.binarized.binarized.cell b j = s.binarized.cell b j := by
  by_cases hb : b = .bin
  · subst hb
    refine State.cell_bin_eq_of_binBit (fun p => ?_) j
    rw [s.binarized.binBit_binarized]
    simp only [State.pixels, State.binarized_width, State.binarized_height, State.binarized_lumaAt]
    split
    case isTrue hp => exact ((s.binBit_binarized p).trans (if_pos hp)).symm
    case isFalse => rfl
  · exact s.binarized.cell_binarized_of_ne_bin hb j

/-- The sides alone decide whether BINARIZE refuses, and how (R191). -/
theorem exec_binarize_alike {s t : State} (hw : t.width = s.width) (hh : t.height = s.height) :
    (∃ e, exec .binarize s = .next (s.raise e) ∧ exec .binarize t = .next (t.raise e)) ∨
      (exec .binarize s = .next s.binarized ∧ exec .binarize t = .next t.binarized) := by
  by_cases hsides : s.width < 16 ∨ s.height < 16
  · exact .inl ⟨_, exec_binarize_degenerate hsides, exec_binarize_degenerate (by rwa [hw, hh])⟩
  · by_cases hfit : s.width * s.height ≤ 4194304
    · exact .inr ⟨exec_binarize_legal (by omega) (by omega) hfit, exec_binarize_legal (by omega) (by omega) (by rwa [hw, hh])⟩
    · exact .inl ⟨_, exec_binarize_tooLarge (by omega) (by omega) (by omega),
        exec_binarize_tooLarge (by omega) (by omega) (by rw [hw, hh]; omega)⟩

/-- Settles O40: the sides decide alike both times, and a second binarization stores what the first did. -/
theorem binarizeTwice : Obligations.BinarizeTwice := by
  intro s t u ht hu
  have hfrom := exec_completedFrom ht
  refine ⟨hfrom.luma, ?_⟩
  rcases exec_binarize_alike (congrArg BitVec.toNat hfrom.imgW) (congrArg BitVec.toNat hfrom.imgH) with
    ⟨e, hs, ht'⟩ | ⟨hs, ht'⟩
  all_goals
    obtain rfl := Host.Outcome.next.inj (ht.symm.trans hs)
    obtain rfl := Host.Outcome.next.inj (hu.symm.trans ht')
  · exact ⟨rfl, fun b j => State.cell_raise e _ b j, rfl, rfl, rfl⟩
  · exact ⟨by simp, s.cell_binarized_binarized, by simp, by simp, by simp⟩

end Sys2Proof.Machine
end

section
/-!
PROOFS. Which command can complete with which error (spec/60_exceptions.md R222).
-/

namespace Sys2Proof.Machine

/-- A command has one outcome, so the code it leaves is that of any outcome known for it. -/
theorem err_of_exec {i : Instr} {s t u : State} (h : exec i s = .next t) (hu : exec i s = .next u) : t.err = u.err :=
  congrArg State.err (Host.Outcome.next.inj (h.symm.trans hu))

/-- A GF command that refuses the operand 0 completes with success or with GfDomain (R130, R131, R133). -/
theorem err_of_zeroRefused {i : Instr} {s t : State} {a v : Byte} (h : exec i s = .next t)
    (hzero : a = 0 → exec i s = .next (s.raise .gfDomain)) (hvalue : a ≠ 0 → exec i s = .next (s.completeGf v)) :
    t.err = .success ∨ t.err = .gfDomain := by
  by_cases ha : a = 0
  · exact .inr (err_of_exec h (hzero ha))
  · exact .inl (err_of_exec h (hvalue ha))

/-- RSSYN has the configuration test as its only failure (R163). -/
theorem exec_rssyn_err {s t : State} (h : exec .rssyn s = .next t) : t.err = .success ∨ t.err = .badConfig := by
  rcases execRssyn_cases s with ⟨_, hbad⟩ | ⟨_, hdone⟩
  · exact .inr (err_of_exec h hbad)
  · exact .inl (err_of_exec h hdone)

/-- The four rows of R177. -/
theorem exec_rsdec_err {s t : State} (h : exec .rsdec s = .next t) :
    t.err = .success ∨ t.err = .badConfig ∨ t.err = .uncorrectableBlock := by
  rcases execRsdec_cases s with ⟨_, hbad⟩ | ⟨_, _, hclean⟩ | ⟨_, _, _, hfail⟩ | ⟨_, _, _, _, _, hfixed⟩
  · exact .inr (.inl (err_of_exec h hbad))
  · exact .inl (err_of_exec h hclean)
  · exact .inr (.inr (err_of_exec h hfail))
  · exact .inl (err_of_exec h hfixed)

/-- The two refusals of R191, and success. -/
theorem exec_binarize_err {s t : State} (h : exec .binarize s = .next t) :
    t.err = .success ∨ t.err = .binarizationFailed ∨ t.err = .badConfig := by
  rcases execBinarize_cases s with ⟨_, hsides⟩ | ⟨_, _, hlarge⟩ | ⟨_, _, hdone⟩
  · exact .inr (.inl (err_of_exec h hsides))
  · exact .inr (.inr (err_of_exec h hlarge))
  · exact .inl (err_of_exec h hdone)

/-- Settles O50, command by command; an illegal word has one completion. -/
theorem errorsPerCommand : Obligations.ErrorsPerCommand := by
  refine ⟨fun i s t h => ?command, fun s t d hb hd h => ?illegal⟩
  case command =>
    cases i with
    | nop => exact err_of_exec h (exec_nop s)
    | gfadd a b => exact err_of_exec h (exec_gfadd a b s)
    | gfmul a b => exact err_of_exec h (exec_gfmul a b s)
    | gfexp a => exact err_of_exec h (exec_gfexp a s)
    | gfdiv a b => exact err_of_zeroRefused (a := b) h (fun hb => hb ▸ exec_gfdiv_zero a s) (exec_gfdiv s)
    | gfinv a => exact err_of_zeroRefused (a := a) h (fun ha => ha ▸ exec_gfinv_zero s) (exec_gfinv s)
    | gflog a => exact err_of_zeroRefused (a := a) h (fun ha => ha ▸ exec_gflog_zero s) (exec_gflog s)
    | rssyn => exact exec_rssyn_err h
    | rsdec => exact exec_rsdec_err h
    | binarize => exact exec_binarize_err h
  case illegal =>
    obtain rfl := Host.Outcome.next.inj ((engineTurn_illegal hb hd).symm.trans h)
    exact State.raise_err _ s

end Sys2Proof.Machine
end

section
/-!
PROOFS. RSDEC issued again (spec/70_reset_and_hazards.md R263): it meets the block that the first left.
-/

namespace Sys2Proof.Machine

/-! ### The same block configuration -/

section SameConfiguration
variable {s t : State} (hN : t.rsN = s.rsN) (hK : t.rsK = s.rsK)
include hN hK

theorem State.blockE_congr : t.blockE = s.blockE :=
  congrArg₂ (fun n k : Byte => n.toNat - k.toNat) hN hK

theorem State.blockLegal_congr : t.blockLegal = s.blockLegal := by
  rw [State.blockLegal, State.blockLegal, State.blockN, State.blockK, hN, hK]
  rfl

theorem State.blockSyndromes_congr (hcw : t.codewords = s.codewords) : t.blockSyndromes = s.blockSyndromes := by
  rw [State.blockSyndromes, State.blockE_congr hN hK, hcw, State.blockSyndromes]

end SameConfiguration

/-! ### RSDEC again (O31) -/

/-- RSDEC on a block that it cannot correct (R176). -/
theorem exec_rsdec_uncorrectable {s : State} (hlegal : s.blockLegal = true) (hcode : ¬ isCodeword s.blockE s.codewords)
    (hnone : correctBlock s.blockE s.codewords = none) :
    exec .rsdec s = .next (s.storeSyndromes.raise .uncorrectableBlock) := by
  rcases exec_rsdec_cases hlegal with ⟨hcode', _⟩ | ⟨_, _, h⟩ | ⟨_, _, _, hsome, _⟩
  · exact absurd hcode' hcode
  · exact h
  · simp [hnone] at hsome

/-- RSDEC refuses a configuration with BadConfig, so any other code tells that it was legal (R160). -/
theorem blockLegal_of_exec_rsdec {s t : State} (h : exec .rsdec s = .next t) (herr : t.err ≠ .badConfig) :
    s.blockLegal = true := by
  by_contra hillegal
  exact herr (err_of_exec h (exec_rsdec_badConfig (Bool.eq_false_iff.mpr hillegal)))

/-- A success of RSDEC leaves a codeword of the configuration, which it kept (R179). -/
theorem exec_rsdec_success {s t : State} (h : exec .rsdec s = .next t) (herr : t.err = .success) :
    t.blockLegal = true ∧ isCodeword t.blockE t.codewords := by
  have hkept := exec_completedFrom h
  have hlegal := blockLegal_of_exec_rsdec h (by simp [herr])
  rw [State.blockLegal_congr hkept.rsN hkept.rsK, State.blockE_congr hkept.rsN hkept.rsK]
  obtain ⟨u, hu, ho⟩ := rsdecSuccessLeavesCodeword s hlegal
  obtain rfl := Host.Outcome.next.inj (h.symm.trans hu)
  rcases ho with ⟨hfail, _⟩ | ⟨_, hcode, _⟩
  · simp [hfail] at herr
  · exact ⟨hlegal, hcode⟩

/-- UncorrectableBlock is answered to a block that is no codeword and has no correction, and only SYN is written (R176, R177). -/
theorem exec_rsdec_failure {s t : State} (h : exec .rsdec s = .next t) (herr : t.err = .uncorrectableBlock) :
    s.blockLegal = true ∧ ¬ isCodeword s.blockE s.codewords ∧ correctBlock s.blockE s.codewords = none ∧
      t = s.storeSyndromes.raise .uncorrectableBlock := by
  have hlegal := blockLegal_of_exec_rsdec h (by simp [herr])
  rcases exec_rsdec_cases hlegal with ⟨_, hs⟩ | ⟨hcode, hnone, hs⟩ | ⟨_, _, _, _, hs⟩
  · have hdone : t.err = .success := err_of_exec h hs
    simp [hdone] at herr
  · exact ⟨hlegal, hcode, hnone, Host.Outcome.next.inj (h.symm.trans hs)⟩
  · have hdone : t.err = .success := err_of_exec h hs
    simp [hdone] at herr

/-- Storing the syndromes changes nothing where those of the same block stand already. -/
theorem State.storeSyndromes_sameCells {s t : State} (hN : t.rsN = s.rsN) (hK : t.rsK = s.rsK)
    (hcw : t.codewords = s.codewords) (hcell : t.sameCells s.storeSyndromes) :
    t.storeSyndromes.sameCells t := by
  intro b j
  rw [State.cell_storeSyndromes, State.blockE_congr hN hK, State.blockSyndromes_congr hN hK hcw, hcell b j,
    State.cell_storeSyndromes]
  split <;> rfl

/-- Settles O31: a success leaves a codeword, which is clean; a failure leaves CW, so the same block fails and the same
syndromes are stored again. -/
theorem rsdecTwice : Obligations.RsdecTwice := by
  intro s t u ht hu
  refine ⟨fun herr => ?success, fun herr => ?failure⟩
  case success =>
    obtain ⟨hlegal, hcode⟩ := exec_rsdec_success ht herr
    obtain rfl := Host.Outcome.next.inj ((exec_rsdec_clean hlegal hcode).symm.trans hu)
    exact ⟨rfl, rfl, rfl, fun j => by simp⟩
  case failure =>
    obtain ⟨hlegal, hcode, hnone, rfl⟩ := exec_rsdec_failure ht herr
    have hkept := exec_completedFrom ht
    have hE := State.blockE_congr hkept.rsN hkept.rsK
    have hcw : (s.storeSyndromes.raise .uncorrectableBlock).codewords = s.codewords :=
      State.codewords_congr hkept.rsN fun j => by simp
    have hagain := exec_rsdec_uncorrectable ((State.blockLegal_congr hkept.rsN hkept.rsK).trans hlegal)
      (by rwa [hE, hcw]) (by rwa [hE, hcw])
    obtain rfl := Host.Outcome.next.inj (hagain.symm.trans hu)
    have hcells := State.storeSyndromes_sameCells hkept.rsN hkept.rsK hcw fun b j => by simp
    exact ⟨rfl, fun b j => by simpa using hcells b j, by simp, by simp⟩

end Sys2Proof.Machine
end

section
/-!
PROOFS. What a command writes, as data computed from what it reads: the results belong to their commands
(spec/70_reset_and_hazards.md R257) and are a function of the inputs (R263).
-/

namespace Sys2Proof.Machine

/-! ### Commands as effects -/

/-- What a completion writes: the code, the result registers (none: left alone) and the bytes of the memories from index 0 on. -/
structure Effect where
  code : ErrorCode := .success
  result : Option Byte := none
  /-- SYNZ and the number of errors. -/
  rsStat : Option (Bool × Nat) := none
  /-- The block size and the blocks along each side. -/
  geometry : Option (Nat × Nat × Nat) := none
  cw : List Byte := []
  syn : List Byte := []
  bin : List Byte := []

/-- The bytes written to a memory; no command writes LUMA (R204). -/
def Effect.bytes (f : Effect) : Bank → List Byte
  | .cw => f.cw
  | .syn => f.syn
  | .bin => f.bin
  | .luma => []

/-- The memories written. -/
def Effect.store (f : Effect) (s : State) : State :=
  ((s.setCells .syn 0 f.syn).setCells .cw 0 f.cw).setCells .bin 0 f.bin

/-- The result registers written. -/
def Effect.setResults (f : Effect) (s : State) : State :=
  { s with
    result := f.result.getD s.result
    synz := (f.rsStat.map Prod.fst).getD s.synz
    nerr := (f.rsStat.map fun r => BitVec.ofNat 8 r.2).getD s.nerr
    blkSz := (f.geometry.map fun g => BitVec.ofNat 13 g.1).getD s.blkSz
    gridX := (f.geometry.map fun g => BitVec.ofNat 16 g.2.1).getD s.gridX
    gridY := (f.geometry.map fun g => BitVec.ofNat 16 g.2.2).getD s.gridY }

/-- The completion that writes `f` (R111, R112). -/
def Effect.apply (f : Effect) (s : State) : State := (f.setResults (f.store s)).raise f.code

section Apply
variable (f : Effect) (s : State)

@[simp] theorem Effect.apply_err : (f.apply s).err = f.code := rfl

@[simp] theorem Effect.apply_result : (f.apply s).result = f.result.getD s.result := by
  simp [Effect.apply, Effect.setResults, Effect.store]

@[simp] theorem Effect.apply_synz : (f.apply s).synz = (f.rsStat.map Prod.fst).getD s.synz := by
  simp [Effect.apply, Effect.setResults, Effect.store]

@[simp] theorem Effect.apply_nerr : (f.apply s).nerr = (f.rsStat.map fun r => BitVec.ofNat 8 r.2).getD s.nerr := by
  simp [Effect.apply, Effect.setResults, Effect.store]

@[simp] theorem Effect.apply_blkSz : (f.apply s).blkSz = (f.geometry.map fun g => BitVec.ofNat 13 g.1).getD s.blkSz := by
  simp [Effect.apply, Effect.setResults, Effect.store]

@[simp] theorem Effect.apply_gridX : (f.apply s).gridX = (f.geometry.map fun g => BitVec.ofNat 16 g.2.1).getD s.gridX := by
  simp [Effect.apply, Effect.setResults, Effect.store]

@[simp] theorem Effect.apply_gridY : (f.apply s).gridY = (f.geometry.map fun g => BitVec.ofNat 16 g.2.2).getD s.gridY := by
  simp [Effect.apply, Effect.setResults, Effect.store]

/-- No command writes a configuration register. -/
@[simp] theorem Effect.apply_configuration :
    (f.apply s).rsN = s.rsN ∧ (f.apply s).rsK = s.rsK ∧ (f.apply s).imgW = s.imgW ∧ (f.apply s).imgH = s.imgH := by
  simp [Effect.apply, Effect.setResults, Effect.store]

/-- The cells written read as written, the others as before. -/
theorem Effect.cell_apply (b : Bank) (j : Nat) :
    (f.apply s).cell b j = if j < (f.bytes b).length then (f.bytes b).getD j 0 else s.cell b j := by
  have hstore : (f.apply s).cell b j = (f.store s).cell b j := by cases b <;> rfl
  rw [hstore, Effect.store]
  cases b <;> simp [State.cell_setCells, State.cell_setCells_otherBank, Effect.bytes]

theorem Effect.cell_apply_of_nil {b : Bank} (h : f.bytes b = []) (j : Nat) : (f.apply s).cell b j = s.cell b j := by
  rw [Effect.cell_apply, h]
  exact if_neg (Nat.not_lt_zero j)

end Apply

/-- The bytes BINARIZE writes to BIN (R202). -/
def State.binBytes (s : State) : List Byte :=
  (List.range ((s.pixels + 7) / 8)).map fun j =>
    binByte (pixelBlack s.lumaAt s.width s.height (smoothGrid s.lumaAt s.width s.height)) s.pixels (s.cell .bin j) j

/-- A GF command that refuses the operand 0 (R130, R131, R133). -/
def Effect.gfUnlessZero (a v : Byte) : Effect := if a = 0 then { code := .gfDomain } else { result := some v }

/-- What a command writes when it completes in state `s`. -/
def State.effect (s : State) : Instr → Effect
  | .nop => {}
  | .gfadd a b => { result := some (gfAdd a b) }
  | .gfmul a b => { result := some (gfMul a b) }
  | .gfdiv a b => .gfUnlessZero b (gfDiv a b)
  | .gfinv a => .gfUnlessZero a (gfInv a)
  | .gfexp a => { result := some (expTable a.toNat) }
  | .gflog a => .gfUnlessZero a (BitVec.ofNat 8 (gfLog a))
  | .rssyn =>
    if s.blockLegal then { syn := s.blockSyndromes, rsStat := some (allZero s.blockSyndromes, 0) }
    else { code := .badConfig }
  | .rsdec =>
    if !s.blockLegal then { code := .badConfig }
    else if allZero s.blockSyndromes then { syn := s.blockSyndromes, rsStat := some (true, 0) }
    else
      match correctBlock s.blockE s.codewords with
      | none => { code := .uncorrectableBlock, syn := s.blockSyndromes }
      | some (fixed, nu) => { syn := s.blockSyndromes, cw := fixed, rsStat := some (false, nu) }
  | .binarize =>
    if s.imageDegenerate then { code := .binarizationFailed }
    else if s.imageTooLarge then { code := .badConfig }
    else
      let size := blockSize s.width s.height
      { bin := s.binBytes, geometry := some (size, blocksAlong s.width size, blocksAlong s.height size) }

theorem Effect.gfUnlessZero_apply (a v : Byte) (s : State) :
    (Effect.gfUnlessZero a v).apply s = if a = 0 then s.raise .gfDomain else s.completeGf v := by
  unfold Effect.gfUnlessZero
  split <;> rfl

/-- The geometry is that of the sides before the image was stored, since storing writes BIN only (R203). -/
theorem State.binarized_eq (s : State) : s.binarized = (s.storeBinary.setBinGeometry (blockSize s.width s.height)
    (blocksAlong s.width (blockSize s.width s.height)) (blocksAlong s.height (blockSize s.width s.height))).complete := by
  rw [State.binarized, State.storeGeometry]
  simp only [State.width, State.height, State.storeBinary_imgW, State.storeBinary_imgH]

/-- A command is its effect. -/
theorem exec_eq_effect (i : Instr) (s : State) : exec i s = .next ((s.effect i).apply s) := by
  cases i with
  | nop | gfadd | gfmul | gfexp => rfl
  | gfdiv | gfinv | gflog => exact congrArg Host.Outcome.next (Effect.gfUnlessZero_apply _ _ s).symm
  | rssyn =>
    rcases execRssyn_cases s with ⟨hlegal, h⟩ | ⟨hlegal, h⟩ <;> rw [exec, h, State.effect, hlegal] <;> rfl
  | rsdec =>
    rcases execRsdec_cases s with
      ⟨hlegal, h⟩ | ⟨hlegal, hzero, h⟩ | ⟨hlegal, hzero, hfound, h⟩ | ⟨_, _, hlegal, hzero, hfound, h⟩ <;>
      rw [exec, h, State.effect, hlegal]
    · rfl
    · rw [hzero]; rfl
    · rw [hzero, hfound]; rfl
    · rw [hzero, hfound]; rfl
  | binarize =>
    rcases execBinarize_cases s with ⟨hsides, h⟩ | ⟨hsides, hlarge, h⟩ | ⟨hsides, hlarge, h⟩ <;>
      rw [exec, h, State.effect, hsides]
    · rfl
    · rw [hlarge]; rfl
    · rw [hlarge]; exact congrArg Host.Outcome.next s.binarized_eq

/-- A command completes in one way, with its effect. -/
theorem eq_apply_of_exec {i : Instr} {s t : State} (h : exec i s = .next t) : t = (s.effect i).apply s :=
  Host.Outcome.next.inj (h.symm.trans (exec_eq_effect i s))

/-! ### What a command reads (O52) -/

/-- The effect of a command is a function of the configuration registers and the memories (R263). -/
theorem State.sameInputs.effect_eq {s t : State} (h : s.sameInputs t) (i : Instr) : s.effect i = t.effect i := by
  obtain ⟨hN, hK, hW, hH, hcells⟩ := h
  have hcw : s.codewords = t.codewords := State.codewords_congr hN (hcells .cw)
  have hE : s.blockE = t.blockE := State.blockE_congr hN hK
  have hlegal : s.blockLegal = t.blockLegal := State.blockLegal_congr hN hK
  have hsyn : s.blockSyndromes = t.blockSyndromes := State.blockSyndromes_congr hN hK hcw
  have hwidth : s.width = t.width := congrArg BitVec.toNat hW
  have hheight : s.height = t.height := congrArg BitVec.toNat hH
  have hluma : s.lumaAt = t.lumaAt := funext fun p => congrArg BitVec.toNat (hcells .luma p)
  cases i with
  | nop | gfadd | gfmul | gfdiv | gfinv | gfexp | gflog => rfl
  | rssyn => simp only [State.effect, hlegal, hsyn]
  | rsdec => simp only [State.effect, hlegal, hsyn, hE, hcw]
  | binarize =>
    have hpixels : s.pixels = t.pixels := by rw [State.pixels, hwidth, hheight, State.pixels]
    have hsides : s.imageDegenerate = t.imageDegenerate := by
      rw [State.imageDegenerate, hwidth, hheight, State.imageDegenerate]
    have hlarge : s.imageTooLarge = t.imageTooLarge := by rw [State.imageTooLarge, hpixels, State.imageTooLarge]
    have hbin : s.binBytes = t.binBytes := by
      simp only [State.binBytes, hpixels, hwidth, hheight, hluma, hcells .bin]
    simp only [State.effect, hsides, hlarge, hbin, hwidth, hheight]

/-- The same effect on the same inputs leaves the same inputs. -/
theorem Effect.apply_sameInputs (f : Effect) {s t : State} (h : s.sameInputs t) : (f.apply s).sameInputs (f.apply t) := by
  obtain ⟨hN, hK, hW, hH, hcells⟩ := h
  refine ⟨by simp [hN], by simp [hK], by simp [hW], by simp [hH], fun b j => ?_⟩
  rw [f.cell_apply, f.cell_apply, hcells b j]

/-- Settles O52: both commands have the same effect, which writes each result register in both or in neither. -/
theorem resultDependsOnInputsOnly : Obligations.ResultDependsOnInputsOnly := by
  intro i s s' t t' hin ht ht'
  obtain rfl := eq_apply_of_exec ht
  obtain rfl := eq_apply_of_exec ht'
  rw [← hin.effect_eq i]
  generalize s.effect i = f
  refine ⟨rfl, f.apply_sameInputs hin, ?result, ?rsStat, ?geometry⟩
  case result => cases hf : f.result <;> simp [hf]
  case rsStat => cases hf : f.rsStat <;> simp [hf]
  case geometry => cases hf : f.geometry <;> simp [hf]

/-! ### Which command writes what (O51) -/

/-- The commands that write RESULT (R128 to R133). -/
def IsGfCommand (i : Instr) : Prop :=
  (∃ a b, i = .gfadd a b ∨ i = .gfmul a b ∨ i = .gfdiv a b) ∨ ∃ a, i = .gfinv a ∨ i = .gfexp a ∨ i = .gflog a

/-- Each result location is left alone, or written by the command that owns it on the condition of R257. -/
structure Effect.OwnedBy (f : Effect) (i : Instr) : Prop where
  result : f.result = none ∨ f.code = .success ∧ IsGfCommand i
  rsStat : f.rsStat = none ∨ f.code = .success ∧ (i = .rssyn ∨ i = .rsdec)
  syn : f.syn = [] ∨ f.code ≠ .badConfig ∧ (i = .rssyn ∨ i = .rsdec)
  cw : f.cw = [] ∨ f.code = .success ∧ i = .rsdec
  binary : (f.bin = [] ∧ f.geometry = none) ∨ f.code = .success ∧ i = .binarize

/-- A failure before any write leaves every result location alone. -/
theorem Effect.OwnedBy.failed (e : ErrorCode) (i : Instr) : Effect.OwnedBy { code := e } i := by
  constructor <;> exact .inl (by simp)

theorem Effect.OwnedBy.gf {i : Instr} (h : IsGfCommand i) (v : Byte) : Effect.OwnedBy { result := some v } i := by
  constructor <;> simp [h]

theorem Effect.OwnedBy.gfUnlessZero {i : Instr} (h : IsGfCommand i) (a v : Byte) : (Effect.gfUnlessZero a v).OwnedBy i := by
  unfold Effect.gfUnlessZero
  split
  · exact .failed _ i
  · exact .gf h v

/-- Every command keeps to its own result locations (R257). -/
theorem State.effect_ownedBy (s : State) (i : Instr) : (s.effect i).OwnedBy i := by
  cases i with
  | nop => exact .failed _ _
  | gfadd a b => exact .gf (.inl ⟨a, b, by simp⟩) _
  | gfmul a b => exact .gf (.inl ⟨a, b, by simp⟩) _
  | gfdiv a b => exact .gfUnlessZero (.inl ⟨a, b, by simp⟩) _ _
  | gfinv a => exact .gfUnlessZero (.inr ⟨a, by simp⟩) _ _
  | gfexp a => exact .gf (.inr ⟨a, by simp⟩) _
  | gflog a => exact .gfUnlessZero (.inr ⟨a, by simp⟩) _ _
  | rssyn =>
    rw [State.effect]
    split
    · constructor <;> simp
    · exact .failed _ _
  | rsdec =>
    rw [State.effect]
    split_ifs
    · exact .failed _ _
    · constructor <;> simp
    · split <;> constructor <;> simp
  | binarize =>
    rw [State.effect]
    split_ifs
    · exact .failed _ _
    · exact .failed _ _
    · constructor <;> simp

/-- Settles O51: what an effect leaves alone has not changed, and the rest is the frame of every completion. -/
theorem resultsBelongToTheirCommands : Obligations.ResultsBelongToTheirCommands := by
  intro i s t h
  have hkept := exec_completedFrom h
  have howned := s.effect_ownedBy i
  refine ⟨fun hne => ?result, fun hne => ?rsStat, fun hne => ?syn, fun hne => ?cw, fun hne => ?binary, hkept.luma, hkept.rsN,
    hkept.rsK, hkept.imgW, hkept.imgH, hkept.ie, hkept.perr, hkept.errBefore, hkept.cmdl, hkept.agenda, hkept.reply, hkept.draws,
    hkept.done, hkept.busy⟩
  all_goals obtain rfl := eq_apply_of_exec h
  case result => exact howned.result.resolve_left fun hnone => hne (by simp [hnone])
  case rsStat => exact howned.rsStat.resolve_left fun hnone => by simp [hnone] at hne
  case syn =>
    obtain ⟨j, hj⟩ := hne
    exact howned.syn.resolve_left fun hnil => hj (Effect.cell_apply_of_nil (b := .syn) _ s hnil j)
  case cw =>
    obtain ⟨j, hj⟩ := hne
    exact howned.cw.resolve_left fun hnil => hj (Effect.cell_apply_of_nil (b := .cw) _ s hnil j)
  case binary =>
    refine howned.binary.resolve_left fun ⟨hnil, hnone⟩ => ?_
    have hcell := Effect.cell_apply_of_nil (s.effect i) s (b := .bin) hnil
    simp [hcell, hnone] at hne

end Sys2Proof.Machine
end

section
/-!
PROOFS. Resets and progress: what a reset loses and keeps, and that a running command ends (spec/70_reset_and_hazards.md
R250 to R253, R261).
-/

namespace Sys2Proof.Machine

/-! ### Reset (O54) -/

/-- The memories at risk are those that the running command writes (R252). -/
theorem State.mem_banksAtRisk_iff {s : State} {b : Bank} :
    b ∈ s.banksAtRisk ↔ s.busy = true ∧
      ((decode s.cmdl = .ok .rssyn ∧ b = .syn) ∨ (decode s.cmdl = .ok .rsdec ∧ (b = .cw ∨ b = .syn)) ∨
        (decode s.cmdl = .ok .binarize ∧ b = .bin)) := by
  cases hb : s.busy with
  | false => simp [State.banksAtRisk, hb]
  | true =>
    cases hd : decode s.cmdl with
    | error e => simp [State.banksAtRisk, hb, State.fetch, hd]
    | ok i => cases i <;> simp [State.banksAtRisk, hb, State.fetch, hd, banksWritten]

section ResetLosing
variable (s : State) (bs : List Bank)

/-- The state after a reset by which the memories `bs` become unspecified. -/
def State.resetLosing : State := ((s.loseBanks s.draws bs).resetRegisters).drawn

/-- Such a reset leaves nothing of the registers, whatever was running (R250, R251). -/
theorem State.resetLosing_frame : s.resetLosing bs = { State.reset with
    cw := (s.resetLosing bs).cw, syn := (s.resetLosing bs).syn, luma := (s.resetLosing bs).luma
    bin := (s.resetLosing bs).bin, agenda := s.agenda, reply := s.reply, draws := s.draws + 1 } := by
  simp [State.resetLosing, State.resetRegisters, State.drawn]

/-- The lost memories hold the free contents number `draws`, the others what they held (R252, R253; log entry 6). -/
theorem State.cell_resetLosing (b : Bank) (j : Nat) :
    (s.resetLosing bs).cell b j = if b ∈ bs then Config.freeByte s.draws (b.base + j) else s.cell b j := by
  rw [State.cell, State.resetLosing, State.mem_drawn, State.mem_resetRegisters, State.mem_loseBanks]
  split
  · exact Memory.byteAt_unspecified b s.draws j
  · rfl

end ResetLosing

/-- A reset with power kept loses the memories at risk (R252). -/
theorem step_reset {s : State} {rest : List Event} (ha : s.agenda = .reset :: rest) :
    step s = .next ((s.withAgenda rest).resetLosing s.banksAtRisk) := step_cons ha

/-- Power-on loses every memory (R253). -/
theorem step_powerOn {s : State} {rest : List Event} (ha : s.agenda = .powerOn :: rest) :
    step s = .next ((s.withAgenda rest).resetLosing [.cw, .syn, .luma, .bin]) := step_cons ha

/-- Settles O54: a reset loses the memories at risk, power-on all four. -/
theorem resetAbandonsCommand : Obligations.ResetAbandonsCommand := by
  refine ⟨fun s rest ha => ?reset, fun s rest ha => ?powerOn⟩
  case reset =>
    refine ⟨_, step_reset ha, State.resetLosing_frame _ _, fun b j => ?_⟩
    rw [State.cell_resetLosing]
    exact if_congr State.mem_banksAtRisk_iff rfl rfl
  case powerOn =>
    refine ⟨_, step_powerOn ha, State.resetLosing_frame _ _, fun b j => ?_⟩
    rw [State.cell_resetLosing]
    exact if_pos (by cases b <;> decide)

/-! ### Progress (O58) -/

/-- The engine's turn completes a running command, whatever it is (R261). -/
theorem step_completes {s : State} {rest : List Event} (hb : s.busy = true) (hnext : s.engineNext rest) :
    ∃ t, step s = .next t ∧ (s.withAgenda rest).CompletedFrom t := by
  obtain ⟨t, ht, hc⟩ := engineTurn_completion (s := s.withAgenda rest) hb
  exact ⟨t, (step_engineNext hnext).trans ht, hc.completedFrom⟩

/-- While a command is running a step takes the first event off the agenda. -/
theorem step_pending {s : State} {e : Event} {rest : List Event} (hb : s.busy = true) (ha : s.agenda = e :: rest) :
    ∃ t, step s = .next t ∧ t.agenda = rest := by
  cases e with
  | engine =>
    obtain ⟨t, ht, hc⟩ := step_completes hb (.inl ha)
    exact ⟨t, ht, hc.agenda⟩
  | read off w =>
    obtain ⟨r, d, _, hr⟩ := (s.withAgenda rest).memRead_frame off w
    exact ⟨_, step_cons ha, by rw [hr]; rfl⟩
  | write off w v =>
    obtain ⟨p, r, hw⟩ := State.memWrite_busy_frame (s := s.withAgenda rest) off w v hb
    exact ⟨_, step_cons ha, by rw [hw]; rfl⟩
  | reset => exact ⟨_, step_reset ha, congrArg State.agenda (State.resetLosing_frame _ _)⟩
  | powerOn => exact ⟨_, step_powerOn ha, congrArg State.agenda (State.resetLosing_frame _ _)⟩

theorem stepsFrom_succ {s t : State} (k : Nat) (h : step s = .next t) : stepsFrom (k + 1) s = stepsFrom k t := by
  rw [stepsFrom, h]

/-- By induction on the pending events: with none the step is the engine's turn, else one fewer is pending after it. -/
theorem exists_stepsFrom_idle {s : State} {evs : List Event} (ha : s.agenda = evs) (hb : s.busy = true) :
    ∃ k, k ≤ evs.length + 1 ∧ (stepsFrom k s).busy = false := by
  induction evs generalizing s with
  | nil =>
    obtain ⟨t, ht, hc⟩ := step_completes hb (.inr ⟨ha, rfl⟩)
    exact ⟨1, le_rfl, by rw [stepsFrom_succ 0 ht]; exact hc.busy⟩
  | cons e rest ih =>
    obtain ⟨t, ht, hrest⟩ := step_pending hb ha
    cases htb : t.busy with
    | false => exact ⟨1, Nat.le_add_left .., by rw [stepsFrom_succ 0 ht]; exact htb⟩
    | true =>
      obtain ⟨k, hk, hidle⟩ := ih hrest htb
      exact ⟨k + 1, Nat.succ_le_succ hk, by rwa [stepsFrom_succ k ht]⟩

/-- Settles O58: the turn is a completion, and the agenda bounds the steps before it. -/
theorem runningCommandCompletes : Obligations.RunningCommandCompletes := by
  refine ⟨fun s rest hb hnext => ?_, fun s hb => exists_stepsFrom_idle rfl hb⟩
  obtain ⟨t, ht, hc⟩ := step_completes hb hnext
  exact ⟨t, ht, hc.busy, hc.done, hc.agenda⟩

end Sys2Proof.Machine
end

section
/-!
PROOFS. No state is stuck: every event is handled, and handling it leaves the events after it pending
(spec/93_implementation_defined.md section 1).
-/

namespace Sys2Proof.Machine

/-! ### What leaves the agenda alone -/

/-- No register is the agenda. -/
@[simp] theorem State.writeReg_agenda (s : State) (off : Nat) (v : Word) : (s.writeReg off v).agenda = s.agenda := by
  rcases s.writeReg_cases off v with ⟨_, h⟩ | ⟨_, h⟩ | ⟨_, h⟩ | ⟨_, h⟩ | ⟨_, h⟩ | ⟨_, h⟩ | ⟨_, h⟩ | h <;>
    rw [h] <;> rfl

@[simp] theorem State.hostStore_agenda (s : State) (b : Bank) (i : Nat) (w : Width) (v : Word) :
    (s.hostStore b i w v).agenda = s.agenda := by
  rw [State.hostStore_frame]

/-- A host read makes nothing pending (R68). -/
@[simp] theorem State.memRead_agenda (s : State) (off : Offset) (w : Width) : (s.memRead off w).agenda = s.agenda := by
  obtain ⟨r, d, _, h⟩ := s.memRead_frame off w
  rw [h]

/-- A host write, refused, dropped or done, makes nothing pending: an accepted command is in BUSY and CMDL (R110). -/
@[simp] theorem State.memWrite_agenda (s : State) (off : Offset) (w : Width) (v : Word) :
    (s.memWrite off w v).agenda = s.agenda := by
  rcases s.memWrite_cases off w v with ⟨_, h⟩ | ⟨_, _, h⟩ | ⟨_, _, _, h⟩ | ⟨_, _, _, _, _, h⟩ <;> simp [h]

@[simp] theorem State.resetLosing_agenda (s : State) (bs : List Bank) : (s.resetLosing bs).agenda = s.agenda := by
  rw [State.resetLosing_frame]

/-! ### Every event is handled (O57) -/

/-- The engine always has a turn: idle it holds all state, running it completes the word (R239, R261). -/
theorem engineTurn_next (s : State) : ∃ t, engineTurn s = .next t ∧ t.agenda = s.agenda := by
  cases hb : s.busy with
  | false => exact ⟨s, engineTurn_idle hb, rfl⟩
  | true =>
    obtain ⟨t, ht, hc⟩ := engineTurn_completion hb
    exact ⟨t, ht, hc.completedFrom.agenda⟩

/-- Whatever the event, it leads to a next state, and the events after it stay pending. -/
theorem handleEvent_next (e : Event) (s : State) : ∃ t, handleEvent e s = .next t ∧ t.agenda = s.agenda := by
  cases e with
  | engine => exact engineTurn_next s
  | read off w => exact ⟨_, rfl, s.memRead_agenda off w⟩
  | write off w v => exact ⟨_, rfl, s.memWrite_agenda off w v⟩
  | reset => exact ⟨_, rfl, s.resetLosing_agenda s.banksAtRisk⟩
  | powerOn => exact ⟨_, rfl, s.resetLosing_agenda [.cw, .syn, .luma, .bin]⟩

/-- Settles O57: the first pending event is handled, and with none pending the engine has its turn. -/
theorem everyStateHasNext : Obligations.EveryStateHasNext := by
  intro s
  cases ha : s.agenda with
  | nil =>
    obtain ⟨t, ht, hagenda⟩ := engineTurn_next s
    exact ⟨t, (step_nil ha).trans ht, hagenda.trans ha⟩
  | cons e rest =>
    obtain ⟨t, ht, hagenda⟩ := handleEvent_next e (s.withAgenda rest)
    exact ⟨t, (step_cons ha).trans ht, hagenda⟩

end Sys2Proof.Machine
end
